-- ==== Sys2Proof/Word.lean ====
section
/-! DEFINITION. The words of the TL-16: bytes, colours, content numbers and 16-bit counts.
What the manual treats as a count or an index is a `Nat`. -/

namespace Sys2Proof

/-- One byte of a message, an image, a record or frame memory. -/
abbrev Byte := BitVec 8

/-- A colour, 24 bits (00_scope.md, Colours and Pixels): R in bits 23 to 16, G in bits 15 to 8, B in bits 7 to 0, as a pixel word
carries them on IDAT (13_data_formats.md). That PDAT carries them in the same places is the model's (DESIGN CHOICE, log 33). -/
abbrev Colour := BitVec 24

/-- A content number (R1). -/
abbrev Content := BitVec 16

/-- A 16-bit count that wraps from 65535 to 0 (AFN, R8; the counters of R36, R132, R136, R162, R177). -/
abbrev Count16 := BitVec 16

end Sys2Proof
end

