-- ==== Sys2Proof/Config.lean ====
section
/-! DEFINITION. What is fixed in the part (Table 4, R2), what the configuration image fixes (Table 3),
and the values the manual leaves free. -/

namespace Sys2Proof

/-! ## Fixed constants (R2, Table 4) -/

namespace Config

/-- Frame slots in frame memory. -/
def slots : Nat := 4
/-- Most READY frame slots. -/
def readyCap : Nat := 3
/-- Frames in a row unheard by a majority, before withdrawal. -/
def unheardLimit : Nat := 2
/-- Reception vetoes in a row, before withdrawal. -/
def receptionLimit : Nat := 6
/-- Frames in a row without an on-time MARK edge. -/
def markMissLimit : Nat := 4
/-- Own frames without any MARK edge, before tracking begins unprompted. -/
def seekSilence : Nat := 2
/-- Empty roll calls in a row, before a joiner founds. -/
def emptyRollCallLimit : Nat := 2
/-- HEARD frames in a row each member needs, before a joiner may join. -/
def settleCount : Nat := 2
/-- Frames spent in RESTING. -/
def restFrames : Nat := 3
/-- Non-HEARD frames in a row, before a roster record is dropped. -/
def recordExpiry : Nat := 8
/-- Records in the report queue. -/
def reportQueue : Nat := 4
/-- Reads of the configuration image. -/
def loadAttempts : Nat := 3
/-- Largest value of a roster heard run. -/
def heardRunMax : Nat := 15
/-- Largest value of a roster miss run, of the Mark Aligner's miss run (R34) and of the input-silence count (R102). -/
def missRunMax : Nat := 255
/-- Stations an array can have: roster entries, roll-call cells, bits of a heard map. -/
def stations : Nat := 16
/-- Pixel clocks per report bit until an image gives another (R175, R181). -/
def heldDivisor : Nat := 64

end Config

/-! ## Configuration symbols (Table 3) -/

/-- When a formed FRAME record is posted (R179). -/
inductive ReportMode where
  | everyFrame
  | onChange
  deriving DecidableEq, Repr

/-- The symbols of Table 3, as the accepted image sets them. The four polarity fields are true for active high. -/
structure Settings where
  ll : Nat
  fl : Nat
  ha0 : Nat
  ha1 : Nat
  va0 : Nat
  va1 : Nat
  hs0 : Nat
  hs1 : Nat
  vs0 : Nat
  vs1 : Nat
  wx : Nat
  wy : Nat
  ww : Nat
  wh : Nat
  n : Nat
  sl : Nat
  cl : Nat
  tw : Nat
  vl : Nat
  sw : Nat
  cz : Nat
  border : Colour
  fill : Colour
  clampLow : Byte
  clampHigh : Byte
  hsHigh : Bool
  vsHigh : Bool
  deHigh : Bool
  flipHigh : Bool
  memoryBytes : Nat
  inputTimeout : Nat
  reportDivisor : Nat
  reportMode : ReportMode
  deriving DecidableEq, Repr

/-- What the settings hold while no image has been accepted. DESIGN CHOICE (log 5): the part holds no settings then
(11_start_up_and_configuration.md, opening), and no held block reads them. -/
def Settings.zero : Settings where
  ll := 0
  fl := 0
  ha0 := 0
  ha1 := 0
  va0 := 0
  va1 := 0
  hs0 := 0
  hs1 := 0
  vs0 := 0
  vs1 := 0
  wx := 0
  wy := 0
  ww := 0
  wh := 0
  n := 0
  sl := 0
  cl := 0
  tw := 0
  vl := 0
  sw := 0
  cz := 0
  border := 0
  fill := 0
  clampLow := 0
  clampHigh := 0
  hsHigh := false
  vsHigh := false
  deHigh := false
  flipHigh := false
  memoryBytes := 0
  inputTimeout := 0
  reportDivisor := 0
  reportMode := .everyFrame

/-! ## Free values -/

/-- The three lines of the array link. -/
inductive LinkLine where
  | mark
  | talk
  | vote
  deriving DecidableEq, Repr

/-- FREE VALUE (log 3): whether some peer holds the line low at the n-th sampling that the part takes by itself.
The manual fixes nothing about what the peers drive. -/
opaque Config.peersLow (line : LinkLine) (n : Nat) : Bool

/-- FREE VALUE (log 10): a byte that the manual leaves open. It stands for what the device left of a burst that a reset
cut short (R148), and for what a writer grant takes when its line buffer has been emptied already (R145). -/
opaque Config.freeByte (n : Nat) : Byte

end Sys2Proof
end

