-- ==== Sys2Proof/Syntax.lean ====
section
/-! DEFINITION. The commands of the TL-16: one constructor of `Instr` for each row of spec/opcode_table.json, with the
operands the row's rule gives it. A command is one event or operation, whole and indivisible
(95_what_each_step_holds.md). -/

namespace Sys2Proof

/-- A level of a line or pin. -/
inductive Level where
  | low
  | high
  deriving DecidableEq, Repr

/-- The three samples of a link cell, at cell pixels m - 1, m and m + 1 (R38). -/
structure Samples where
  first : Level
  middle : Level
  last : Level
  deriving DecidableEq, Repr

/-- The pixel clock at which a falling edge of MARK is taken. -/
inductive EdgeTime where
  /-- The edge is taken while the counters hold (line, pixel). Position (1, 1) is the pixel clock of a frame start that
  the Timebase has taken. -/
  | pixel (line : Nat) (pixel : Nat)
  /-- The edge is taken at the pixel clock of a natural frame start, before the Timebase takes the wrap (R6, R21). -/
  | wrap
  deriving DecidableEq, Repr

/-- The two sources of a reset (R168). -/
inductive ResetKind where
  | powerOn
  | pin
  deriving DecidableEq, Repr

/-- What a release of reset finds on the pins: the straps ID[3:0] (R169), and whether PCLK runs (R168). -/
structure ReleasePins where
  id : BitVec 4
  clockRuns : Bool
  deriving DecidableEq, Repr

/-- What the Output Pipe's reader claims carry to the Memory Port (R149, R158). -/
inductive ReaderItem where
  /-- The first item of a frame: every reader claim that waits is removed. -/
  | frameStart
  /-- The claims of an image line, bursts 0 upward. -/
  | claims (slot : Nat) (line : Nat)
  deriving DecidableEq, Repr

/-- A completed reader burst: the 64 bytes read, with slot, image line and burst index (R151). -/
structure ReadData where
  slot : Nat
  line : Nat
  burst : Nat
  data : List Byte
  deriving DecidableEq, Repr

/-- The commands. The comment of each names the row's rule; positions and operands are those of that rule. -/
inductive Instr where
  /-- RESET (R168). -/
  | reset (kind : ResetKind)
  /-- RESET_RELEASE (R169), with what stands on the pins at the release. -/
  | resetRelease (straps : ReleasePins)
  /-- IMAGE_READ_DONE (R171), with the 64 bytes read. -/
  | imageReadDone (bytes : List Byte)
  /-- FRAME_START (R4): the counters wrap. -/
  | frameStart
  /-- MARK_LOST (R34): the natural frame start at which the miss run becomes 4. -/
  | markLost
  /-- SEEK_SILENCE (R26): the natural frame start at which the silence count reaches 2. -/
  | seekSilence
  /-- REST_END (R101): the natural frame start at which the rest count runs out. -/
  | restEnd
  /-- INPUT_TIMEOUT (R102): the natural frame start at which the input-silence count exceeds the timeout. -/
  | inputTimeout
  /-- LINE_START (R18) of lines 2 to FL; that of line 1 is the frame start (R4). -/
  | lineStart (line : Nat)
  /-- MARK_EDGE (R28). -/
  | markEdge (time : EdgeTime)
  /-- SLOT_BEGIN (R43) of a talk slot. -/
  | slotBegin (slot : Nat)
  /-- ANNOUNCE_SENT (R42). -/
  | announceSent
  /-- SLOT_END (R52) of a talk slot, uncut. -/
  | slotEnd (slot : Nat)
  /-- RECORD_EXPIRY (R62): the slot end at which the entry's miss run reaches 8. -/
  | recordExpiry (slot : Nat)
  /-- ROLL_CALL_CELL (R55): the first pixel of the own roll-call cell. -/
  | rollCallCell
  /-- ROLL_CALL_CLOSE (R65), with the samples of the sixteen cells. -/
  | rollCallClose (cells : List Samples)
  /-- VERDICT_LATCH (R57). -/
  | verdictLatch
  /-- VERDICT_SAMPLE (R89), with the samples of the verdict cell. -/
  | verdictSample (samples : Samples)
  /-- SWAP_LINE (R107). -/
  | swapLine
  /-- CATCH_ZONE_ENTRY (R27). -/
  | catchZoneEntry
  /-- IMAGE_LINE_START (R14). -/
  | imageLineStart (line : Nat)
  /-- IMAGE_LINE_END (R161), uncut. -/
  | imageLineEnd (line : Nat)
  /-- UNDERRUN (R162): a window column falls due that is not resident. -/
  | underrun (line : Nat) (column : Nat)
  /-- READER_COMPLETION (R159): a read burst reaches the Output Pipe. -/
  | readerCompletion (data : ReadData)
  /-- FRAME_OPEN (R135), with the content number of the payload. -/
  | frameOpen (content : Content)
  /-- FRAME_FLAGS (R141), with the payload: bit 0 LEAVE, bit 1 REJOIN (13_data_formats.md). -/
  | frameFlags (payload : BitVec 16)
  /-- LINE_OPEN (R137), with the line index of the payload. -/
  | lineOpen (index : BitVec 16)
  /-- PIXEL_WORD (R137). -/
  | pixelWord (colour : Colour)
  /-- FRAME_CLOSE (R138), with the line count of the payload. -/
  | frameClose (count : BitVec 16)
  /-- DAMAGED_CONTROL_WORD (R139), with the word as it stands on IDAT. -/
  | damagedControlWord (word : BitVec 24)
  /-- FRAME_OPEN_ARRIVAL (R46). -/
  | frameOpenArrival
  /-- LEAVE (R113). -/
  | leave
  /-- REJOIN (R115). -/
  | rejoin
  /-- REFRESH_CLAIM (R149): a line start reaches the Memory Port. -/
  | refreshClaim
  /-- WRITER_CLAIM (R149): a finished line reaches the Memory Port. -/
  | writerClaim (slot : Nat) (line : Nat)
  /-- READER_CLAIM (R158): an item of the reader's claims reaches the Memory Port. -/
  | readerClaim (item : ReaderItem)
  /-- BURST_COMPLETION (R151). -/
  | burstCompletion
  /-- MEMORY_DISCARD (R152): a discard reaches the Memory Port. -/
  | memoryDiscard (slot : Nat)
  /-- READER_WITHDRAWAL (R153). -/
  | readerWithdrawal (line : Nat)
  /-- RECORD_SENT (R176): a record's last stop bit ends. -/
  | recordSent
  /-- MARK_RISING_EDGE (R20). -/
  | markRisingEdge
  /-- TALK_CELL_SETTLED (R49): a cell of the open talk slot is settled. -/
  | talkCellSettled (cell : Nat) (samples : Samples)
  deriving DecidableEq, Repr

end Sys2Proof
end

