-- ==== Sys2Proof/Decode.lean ====
section
/-! DEFINITION. The frame input port's words (R133, R185, Table 13-2): the one encoding the manual gives a command, and so the
words that `decodeTableWord` reads. -/

namespace Sys2Proof

/-- One step of the protection register of R185: shift left, and exclusive-or with 0x3 when the feedback is 1. -/
def protectionStep (register : BitVec 4) (bit : Bool) : BitVec 4 :=
  let shifted := register <<< 1
  if register.msb ^^ bit then shifted ^^^ 0x3#4 else shifted

/-- The protection value of a control word over its 20 bits of type and payload, most significant bit first (R185). -/
def protection (field : BitVec 20) : BitVec 4 :=
  (List.range 20).foldl (fun register k => protectionStep register (field.getMsbD k)) 0#4

/-- The type codes of Table 13-2. -/
def typeFrameOpen : BitVec 4 := 0x1#4
def typeFrameFlags : BitVec 4 := 0x2#4
def typeLineOpen : BitVec 4 := 0x3#4
def typeFrameClose : BitVec 4 := 0x4#4

/-- A control word as it stands on IDAT (R133): damaged when the protection differs or the type is none of the four. -/
def decodeControlWord (word : BitVec 24) : Instr :=
  let kind := word.extractLsb' 20 4
  let payload := word.extractLsb' 4 16
  if protection (word.extractLsb' 4 20) ≠ word.extractLsb' 0 4 then .damagedControlWord word
  else if kind = typeFrameOpen then .frameOpen payload
  else if kind = typeFrameFlags then .frameFlags payload
  else if kind = typeLineOpen then .lineOpen payload
  else if kind = typeFrameClose then .frameClose payload
  else .damagedControlWord word

/-- A word of the frame input port: a pixel word when ICTL is low, a control word when it is high (R133). -/
def decodeInputWord (ictl : Bool) (idat : BitVec 24) : Instr :=
  if ictl then decodeControlWord idat else .pixelWord idat

/-- The control word of a type and a payload, with its protection value (R185, Table 13-2). -/
def controlWord (kind : BitVec 4) (payload : BitVec 16) : BitVec 24 :=
  let field : BitVec 20 := kind ++ payload
  field ++ protection field

/-- ICTL and IDAT of a command of the frame input port; none for every other command. -/
def encodeInputWord : Instr → Option (Bool × BitVec 24)
  | .frameOpen content => some (true, controlWord typeFrameOpen content)
  | .frameFlags payload => some (true, controlWord typeFrameFlags payload)
  | .lineOpen index => some (true, controlWord typeLineOpen index)
  | .frameClose count => some (true, controlWord typeFrameClose count)
  | .damagedControlWord word => some (true, word)
  | .pixelWord colour => some (false, colour)
  | _ => none

/-- spec/opcode_table.json gives its rows no bits, and Table 13-2 spells a control word in 24: a word of 24 bits is read as one
on IDAT with ICTL high, and a word of another length spells no command (DESIGN CHOICE, log 19). -/
def decodeTableWord (nbits w : Nat) : Option Instr :=
  if nbits = 24 then some (decodeInputWord true (BitVec.ofNat 24 w)) else none

end Sys2Proof
end

