-- ==== Sys2Proof/Machine/State.lean ====
section
/-! DEFINITION. The state of the TL-16: the state tables of the twelve blocks (Tables 2-x to 12-1), frame memory, what is
on its way between clock domains, and the queue of commands. INVENTORY.md names the rule of every field. -/

namespace Sys2Proof.Machine

open Sys2Proof

/-! ## Timebase -/

/-- Membership states (Table 6-1). -/
inductive MembershipState where
  | config
  | listen
  | joining
  | member
  | resting
  | parked
  | halted
  deriving DecidableEq, Repr

/-- The timebase state (R10). -/
inductive TimebaseState where
  | seeking
  | tracking
  deriving DecidableEq, Repr

/-- The MODEL's own: how far the current pixel clock has been worked through (log 2). -/
inductive PixelPhase where
  /-- The pixel has begun; its samples are still to be taken. -/
  | begun
  /-- The samples are taken; the happenings of the pixel's end are still to be raised. -/
  | sampled
  /-- Everything of the pixel has come about; the next pixel clock is due. -/
  | ended
  deriving DecidableEq, Repr

/-- The Timebase (R3 to R10). Whether it runs or is held is `State.running`. -/
structure Timebase where
  ln : Nat
  px : Nat
  afn : Count16
  state : TimebaseState
  /-- The talk slot that has begun and not ended (R7; DEDUCED, log 12). -/
  openSlot : Option Nat
  /-- The image line that has started and not ended (R7; DEDUCED, log 12). -/
  openLine : Option Nat
  phase : PixelPhase
  /-- A reload was taken at the pixel clock of a wrap that is still to come: that wrap has no further effect (R6;
  DESIGN CHOICE, log 4). -/
  wrapMet : Bool
  /-- The MODEL's own: the membership state as it stood at the last pixel clock before the one the counters hold, which is
  the last of the frame just ended when this one begins a frame (R34; DEDUCED, log 27). -/
  stateBefore : MembershipState
  /-- The MODEL's own: the membership state as it stood when the current pixel ended, read while `phase` is ENDED (R34;
  DEDUCED, log 27). -/
  stateAtEnd : MembershipState
  deriving DecidableEq, Repr

/-- The cause of a frame start (R4). -/
inductive FrameCause where
  | first
  | natural
  | reload
  deriving DecidableEq, Repr

/-! ## Mark Aligner -/

/-- The classes of a falling edge (R25, R28). -/
inductive EdgeClass where
  | followedSeek
  | onTimeOwn
  | catchEdge
  | stray
  deriving DecidableEq, Repr

/-- The last edge taken. -/
structure Capture where
  ln : Nat
  px : Nat
  edge : EdgeClass
  deriving DecidableEq, Repr

/-- The role that the next frame takes when it begins by a reload (R35), with the cut length of R33. -/
inductive PendingRole where
  | follow (cut : Nat)
  | jump (cut : Nat)
  deriving DecidableEq, Repr

/-- The role of the current frame (R35). -/
inductive FrameRole where
  | none
  | lead
  | follow (cut : Nat)
  | jump (cut : Nat)
  deriving DecidableEq, Repr

/-- The Mark Aligner (02_mark_alignment.md, 2.3). -/
structure MarkAligner where
  level : Level
  /-- The samples the filter still needs (R20), oldest first, at most three. -/
  samples : List Level
  catchArmed : Bool
  lastCapture : Option Capture
  onTime : Bool
  pendingRole : Option PendingRole
  frameRole : FrameRole
  missRun : Nat
  silenceCount : Nat
  strayCount : Count16
  /-- The timebase state in which the current frame counts as begun (R24, R26, R34; DEDUCED, log 14). -/
  began : TimebaseState
  /-- Tracking began by silence at the frame start of the current frame (R26; DESIGN CHOICE, log 4). -/
  silenceHere : Bool
  /-- The EVENT TRACKING of that silence found a place in the report queue (R26, R177; DESIGN CHOICE, log 4). -/
  silenceTold : Bool
  /-- An edge was taken at the pixel clock of the wrap that ends this frame, before the wrap (R21;
  DESIGN CHOICE, log 4). -/
  edgeBeforeWrap : Bool
  deriving DecidableEq, Repr

/-! ## Link Interface -/

/-- Transmit phase (Table 3-1). -/
inductive TransmitPhase where
  | idle
  | sending
  | sent
  deriving DecidableEq, Repr

/-- Receive phase (R48 to R50). IN_CHARACTER holds the character cell to be read next, the data bits gathered (first
received first, true for 1) and the level of the lead cell. -/
inductive ReceivePhase where
  | waiting
  | inCharacter (cell : Nat) (bits : List Bool) (lead : Level)
  | between
  | complete
  | broken
  deriving DecidableEq, Repr

/-- Outcome of a talk slot (R52). -/
inductive SlotOutcome where
  | pending
  | heard
  | silent
  | damaged
  deriving DecidableEq, Repr

/-- A verdict order (R86). -/
inductive VerdictOrder where
  | veto
  | none
  deriving DecidableEq, Repr

/-- The Link Interface (Table 3-1). An `Option Level` that is none is a cell unsampled. -/
structure LinkInterface where
  tx : TransmitPhase
  snapshot : Option (List Byte)
  charIndex : Nat
  cellIndex : Nat
  inputAlive : Bool
  rx : ReceivePhase
  received : List Byte
  expected : Option Nat
  activity : Bool
  readback : SlotOutcome
  claimDriven : Bool
  /-- The own station has withdrawn and has driven no claim since (R75, R111; DEDUCED, log 30). -/
  claimOwed : Bool
  latched : VerdictOrder
  /-- The verdict order has been latched in the current frame (R87, R88; DEDUCED, log 12). -/
  latchTaken : Bool
  rollCall : List (Option Level)
  verdictLevel : Option Level
  /-- The samples taken so far of the cell being read (R38; DEDUCED, log 12), oldest first. -/
  cellSamples : List Level
  deriving DecidableEq, Repr

/-! ## Roster Table -/

/-- The states an announcement can carry (R45). -/
inductive AnnouncedState where
  | joining
  | member
  | parked
  deriving DecidableEq, Repr

/-- The record of a valid announcement (R51, R59). The heard map has bit i set for slot i. -/
structure Announcement where
  afn : Count16
  state : AnnouncedState
  shown : Option Content
  ready : List Content
  heardMap : BitVec 16
  deriving DecidableEq, Repr

/-- A record of the roster: an announcement and the receive AFN (R59, R61). -/
structure RosterRecord where
  heard : Announcement
  receiveAfn : Count16
  deriving DecidableEq, Repr

/-- Whether an entry's roll-call cell sampled low (R65). -/
inductive Claimed where
  | unknown
  | yes
  | no
  deriving DecidableEq, Repr

/-- A roster entry (Table 4-1). -/
structure RosterEntry where
  outcome : SlotOutcome
  previous : SlotOutcome
  claimed : Claimed
  record : Option RosterRecord
  heardRun : Nat
  missRun : Nat
  deriving DecidableEq, Repr

/-- The derived results of a roll-call close (R67). -/
structure Results where
  heardAll : Bool
  settled : Bool
  unheard : Bool
  stepAgreement : Nat
  leadAfn : Option Count16
  deriving DecidableEq, Repr

/-- The Roster Table (R59). The sets of station indexes are lists in rising order. -/
structure Roster where
  entries : List RosterEntry
  r : List Nat
  previousR : List Nat
  /-- The results of the frame's roll-call close, or none in a frame without results (R67). -/
  results : Option Results
  deriving DecidableEq, Repr

/-! ## Consent Unit -/

/-- The station's part in the verdict (R78). -/
inductive VoteRole where
  | voting
  | abstaining
  | notVoting
  deriving DecidableEq, Repr

/-- Hold reasons (Table 5-1). -/
inductive HoldReason where
  | none
  | reception
  | step
  | noTarget
  | notReady
  | pendingWithdrawal
  | notVoting
  deriving DecidableEq, Repr

/-- The verdict of a frame (R89). -/
inductive Verdict where
  | swap
  | hold
  deriving DecidableEq, Repr

/-- The Consent Unit (Table 5-1). -/
structure ConsentUnit where
  role : VoteRole
  target : Option Content
  targetReady : Bool
  order : VerdictOrder
  hold : HoldReason
  verdict : Verdict
  receptionRun : Nat
  deriving DecidableEq, Repr

/-! ## Membership Controller -/

/-- Causes of a withdrawal (Table 6-2). -/
inductive WithdrawalCause where
  | leave
  | inputSilent
  | markLost
  | claimLost
  | unheard
  | reception
  | outOfStep
  deriving DecidableEq, Repr

/-- The Membership Controller (Table 6-2). -/
structure Membership where
  state : MembershipState
  withdrawal : Option WithdrawalCause
  park : Bool
  rejoin : Bool
  emptyRun : Nat
  unheardRun : Nat
  inputSilence : Nat
  rest : Nat
  verdictLevel : Option Level
  deriving DecidableEq, Repr

/-! ## Slot Table -/

/-- The states of a frame slot (R116). -/
inductive SlotState where
  | free
  | filling
  | ready
  | shown
  deriving DecidableEq, Repr

/-- A slot record (Table 7-1). -/
structure SlotRecord where
  state : SlotState
  content : Option Content
  linesWritten : Nat
  closing : Bool
  deriving DecidableEq, Repr

/-- The Slot Table (R116, R117, R132). -/
structure SlotTable where
  slots : List SlotRecord
  /-- The READY slots, oldest content first. -/
  readyQueue : List Nat
  shown : Option Nat
  refused : Count16
  defective : Count16
  skipped : Count16
  deriving DecidableEq, Repr

/-! ## Input Port -/

/-- Input states (Table 8-1). -/
inductive InputState where
  | idle
  | filling
  | draining
  deriving DecidableEq, Repr

/-- The states of a line buffer (R143). -/
inductive BufferState where
  | empty
  | receiving
  | waiting
  deriving DecidableEq, Repr

/-- A line buffer (R143): the line's slot and index, its bursts not yet granted, and its colours in order. -/
structure LineBuffer where
  state : BufferState
  slot : Nat
  line : Nat
  toGrant : Nat
  colours : List Colour
  deriving DecidableEq, Repr

/-- The Input Port (Table 8-1). -/
structure InputPort where
  state : InputState
  slot : Nat
  expectedLine : Nat
  pixelCount : Option Nat
  window : Bool
  stray : Count16
  buffers : List LineBuffer
  deriving DecidableEq, Repr

/-! ## Memory Port -/

/-- The refresh lane (R149). -/
inductive RefreshClaim where
  | absent
  | present (overdue : Bool)
  deriving DecidableEq, Repr

/-- A reader claim (R149). -/
structure ReaderBurst where
  slot : Nat
  line : Nat
  burst : Nat
  deriving DecidableEq, Repr

/-- A line of the writer lane (R149): its bursts from `next` up are not yet granted. -/
structure WriterLine where
  slot : Nat
  line : Nat
  next : Nat
  deriving DecidableEq, Repr

/-- The burst in flight (R150), with the data and drop mark of a writer burst (R152). -/
inductive Burst where
  | refresh
  | reader (slot : Nat) (line : Nat) (burst : Nat)
  | writer (slot : Nat) (line : Nat) (burst : Nat) (data : List Byte) (drop : Bool)
  deriving DecidableEq, Repr

/-- The Memory Port (Table 9-1). The urgent flag the arbiter reads is the Output Pipe's. -/
structure MemoryPort where
  refresh : RefreshClaim
  readers : List ReaderBurst
  writers : List WriterLine
  inFlight : Option Burst
  deriving DecidableEq, Repr

/-! ## Output Pipe -/

/-- The mark of a line place (Table 10-1). -/
inductive PlaceMark where
  | active
  | underrun
  | ended
  deriving DecidableEq, Repr

/-- A line place (Table 10-1): vacant, or an image line with the bursts held, the mark and the bytes held. -/
inductive LinePlace where
  | vacant
  | holds (line : Nat) (count : Nat) (mark : PlaceMark) (bytes : List Byte)
  deriving DecidableEq, Repr

/-- The Output Pipe (Table 10-1). -/
structure OutputPipe where
  latched : Option Nat
  previous : Option Nat
  flip : Bool
  places : List LinePlace
  nextLine : Nat
  currentLine : Nat
  urgent : Bool
  underruns : Count16
  deriving DecidableEq, Repr

/-! ## Configuration Loader -/

/-- The phases of start-up (Table 11-2). HELD is reset asserted. -/
inductive LoaderPhase where
  | held
  | reading
  | checking
  | accepted
  | halted
  deriving DecidableEq, Repr

/-- The Configuration Loader (Table 11-2). A byte of the image buffer is absent or received. -/
structure Loader where
  phase : LoaderPhase
  index : BitVec 4
  attempts : Nat
  faults : List Nat
  image : List (Option Byte)
  /-- Reset has been released with no pixel clock, which has not run since: the attempt does not advance
  (R168; DESIGN CHOICE, log 26). -/
  clockAbsent : Bool
  deriving DecidableEq, Repr

/-! ## Report Port -/

/-- The outcome of a frame (R93, R107). -/
inductive FrameOutcome where
  | none
  | swapped
  | repeated
  | joined
  | founded
  | withdrew
  deriving DecidableEq, Repr

/-- The fields of a FRAME record but the lost count (R178, Table 13-4). R has bit i set for index i. -/
structure FrameRecord where
  afn : Count16
  state : MembershipState
  outcome : FrameOutcome
  shown : Option Content
  readyCount : Nat
  r : BitVec 16
  hold : HoldReason
  role : FrameRole
  refused : Byte
  defective : Byte
  skipped : Byte
  underruns : Byte
  strays : Byte
  strayInput : Byte
  deriving DecidableEq, Repr

/-- The events, each with its detail (R180, Table 13-6). -/
inductive Event where
  | started (index : BitVec 4) (n : Nat)
  | configFault (code : Nat) (attempt : Nat)
  | trackingEdge (cut : Nat)
  | trackingSilence
  | markLost (state : MembershipState)
  | joined (target : Content)
  | founded
  | withdrew (cause : WithdrawalCause)
  | parked (former : MembershipState)
  | rejoinIgnored (state : MembershipState)
  deriving DecidableEq, Repr

/-- A record as it is posted: a FRAME record, or an event with its AFN. -/
inductive ReportBody where
  | frame (fields : FrameRecord)
  | event (afn : Count16) (event : Event)
  deriving DecidableEq, Repr

/-- A record in the queue, with the lost count written into it (R177). -/
structure QueuedRecord where
  body : ReportBody
  lost : Count16
  deriving DecidableEq, Repr

/-- What on-change mode compares (R179). -/
structure FrameKey where
  outcome : FrameOutcome
  state : MembershipState
  r : BitVec 16
  hold : HoldReason
  deriving DecidableEq, Repr

/-- The transmitter of RPT (R176): the character, the bit of it and the pixel clocks left in the bit. -/
inductive Transmitter where
  | idle
  | sending (char : Nat) (bit : Nat) (left : Nat)
  deriving DecidableEq, Repr

/-- The Report Port (Table 12-1). -/
structure ReportPort where
  queue : List QueuedRecord
  lost : Count16
  lastFrame : Option FrameKey
  tx : Transmitter
  divisor : Nat
  deriving DecidableEq, Repr

/-! ## Transfers between clock domains -/

/-- What the Input Port sends across to the PCLK domain (R142). -/
inductive InputReport where
  | arrival
  | leave
  | rejoin
  deriving DecidableEq, Repr

/-- What the Input Port and the Slot Table send across to the Memory Port (R143, R123). -/
inductive MemoryItem where
  | writerLine (slot : Nat) (line : Nat)
  | discard (slot : Nat)
  deriving DecidableEq, Repr

/-- What the Output Pipe sends across to the Memory Port (R158, R161, R162). -/
inductive ReaderMessage where
  | item (item : ReaderItem)
  | withdraw (line : Nat)
  deriving DecidableEq, Repr

/-- What is on its way between clock domains, oldest first. -/
structure Transit where
  toPclk : List InputReport
  refreshes : Nat
  toMemory : List MemoryItem
  readerItems : List ReaderMessage
  reads : List ReadData
  deriving DecidableEq, Repr

/-! ## The whole state, the stops and reset -/

/-- The TL-16. `ram` is the attached frame memory in canonical form: addresses strictly rising, no byte 0 listed
(DESIGN CHOICE, log 7). `free` is the MODEL's counter of free values (DESIGN CHOICE, log 3). `pending` is the queue of
commands. -/
@[ext]
structure State where
  settings : Settings
  tb : Timebase
  mark : MarkAligner
  link : LinkInterface
  roster : Roster
  consent : ConsentUnit
  member : Membership
  table : SlotTable
  input : InputPort
  port : MemoryPort
  ram : List Host.Cell
  out : OutputPipe
  loader : Loader
  report : ReportPort
  transit : Transit
  free : Nat
  pending : List Instr
  deriving DecidableEq, Repr

/-- Why a step can stop with a fault. -/
inductive Fault where
  /-- Raised by BURST_COMPLETION alone, when the burst in flight lies at or above the capacity of frame memory, an address
  that does not exist. R172 says that none is ever claimed at run time. Safe: the model stops. -/
  | addressOutsideMemory
  deriving DecidableEq, Repr

/-- Why a step can be refused. -/
inductive Refusal where
  /-- Raised by no arm: every command has its meaning. Safe. -/
  | notModelled (mnemonic : String)
  deriving DecidableEq, Repr

namespace State

/-- R5. -/
def resetTimebase : Timebase where
  ln := 1
  px := 1
  afn := 0
  state := .seeking
  openSlot := none
  openLine := none
  phase := .begun
  wrapMet := false
  stateBefore := .config
  stateAtEnd := .config

/-- R23. -/
def resetMark : MarkAligner where
  level := .high
  samples := []
  catchArmed := false
  lastCapture := none
  onTime := false
  pendingRole := none
  frameRole := .none
  missRun := 0
  silenceCount := 0
  strayCount := 0
  began := .seeking
  silenceHere := false
  silenceTold := false
  edgeBeforeWrap := false

/-- R40. The two transmitter indexes are a DESIGN CHOICE (log 6). -/
def resetLink : LinkInterface where
  tx := .idle
  snapshot := none
  charIndex := 0
  cellIndex := 0
  inputAlive := false
  rx := .waiting
  received := []
  expected := none
  activity := false
  readback := .pending
  claimDriven := false
  claimOwed := false
  latched := .none
  latchTaken := false
  rollCall := List.replicate 16 none
  verdictLevel := none
  cellSamples := []

/-- An entry in the condition of R60. -/
def emptyEntry : RosterEntry where
  outcome := .pending
  previous := .pending
  claimed := .unknown
  record := none
  heardRun := 0
  missRun := 0

/-- R60. -/
def resetRoster : Roster where
  entries := List.replicate 16 emptyEntry
  r := []
  previousR := []
  results := none

/-- R76. -/
def resetConsent : ConsentUnit where
  role := .notVoting
  target := none
  targetReady := false
  order := .none
  hold := .notVoting
  verdict := .hold
  receptionRun := 0

/-- R97. -/
def resetMember : Membership where
  state := .config
  withdrawal := none
  park := false
  rejoin := false
  emptyRun := 0
  unheardRun := 0
  inputSilence := 0
  rest := 0
  verdictLevel := none

/-- A slot record in state FREE (R116). -/
def freeSlot : SlotRecord where
  state := .free
  content := none
  linesWritten := 0
  closing := false

/-- R116. -/
def resetTable : SlotTable where
  slots := List.replicate 4 freeSlot
  readyQueue := []
  shown := none
  refused := 0
  defective := 0
  skipped := 0

/-- An EMPTY line buffer. What its other fields hold is a DESIGN CHOICE (log 6). -/
def emptyBuffer : LineBuffer where
  state := .empty
  slot := 0
  line := 0
  toGrant := 0
  colours := []

/-- R134. The slot, "meaningless" there, is a DESIGN CHOICE (log 6). -/
def resetInput : InputPort where
  state := .idle
  slot := 0
  expectedLine := 0
  pixelCount := none
  window := false
  stray := 0
  buffers := List.replicate 2 emptyBuffer

/-- R148. -/
def resetPort : MemoryPort where
  refresh := .absent
  readers := []
  writers := []
  inFlight := none

/-- R156. -/
def resetOut : OutputPipe where
  latched := none
  previous := none
  flip := false
  places := List.replicate 3 .vacant
  nextLine := 0
  currentLine := 0
  urgent := false
  underruns := 0

/-- R169, at power-on. -/
def resetLoader : Loader where
  phase := .held
  index := 0
  attempts := 0
  faults := []
  image := List.replicate 64 none
  clockAbsent := false

/-- R175. -/
def resetReport : ReportPort where
  queue := []
  lost := 0
  lastFrame := none
  tx := .idle
  divisor := Config.heldDivisor

/-- R168: nothing in progress is finished, so nothing is on its way. -/
def resetTransit : Transit where
  toPclk := []
  refreshes := 0
  toMemory := []
  readerItems := []
  reads := []

/-- The machine right after a power-on reset, RESET still asserted (R168, Table 11-1). -/
def reset : State where
  settings := Settings.zero
  tb := resetTimebase
  mark := resetMark
  link := resetLink
  roster := resetRoster
  consent := resetConsent
  member := resetMember
  table := resetTable
  input := resetInput
  port := resetPort
  ram := []
  out := resetOut
  loader := resetLoader
  report := resetReport
  transit := resetTransit
  free := 0
  pending := []

end State

end Sys2Proof.Machine
end

