-- ==== Sys2Proof/Machine/Ops.lean ====
section
/-! DEFINITION. Operations that several blocks share: content order, saturating counts, bytes and CRC-16, frame memory,
the counters, the report queue and the transfers between clock domains. -/

namespace Sys2Proof.Machine

open Sys2Proof

/-! ## Content order (R1) -/

/-- Content `a` is newer than content `b` (R1). -/
def newer (a b : Content) : Bool :=
  decide (1 ≤ (a - b).toNat ∧ (a - b).toNat ≤ 32767)

/-- Content `a` is newer than an optional content: none is older than every content number (R1). -/
def newerThan (a : Content) : Option Content → Bool
  | none => true
  | some b => newer a b

/-- Each entry is newer than the one before it: "strictly increasing" (R1). -/
def strictlyIncreasing : List Content → Bool
  | [] => true
  | [_] => true
  | a :: b :: rest => newer b a && strictlyIncreasing (b :: rest)

/-! ## Counts -/

/-- A count that rises by one and stays at its limit (R34, R61, R62, R102, R103). -/
def satSucc (limit n : Nat) : Nat := min (n + 1) limit

/-! ## Bytes and the CRC-16 (R184) -/

/-- The high byte of a 16-bit field. -/
def hiByte (w : BitVec 16) : Byte := w.extractLsb' 8 8

/-- The low byte of a 16-bit field. -/
def loByte (w : BitVec 16) : Byte := w.extractLsb' 0 8

/-- A 16-bit field as it is sent: high byte first (13_data_formats.md). -/
def bytes16 (w : BitVec 16) : List Byte := [hiByte w, loByte w]

/-- The 16-bit field of two bytes, high byte first. -/
def word16 (hi lo : Byte) : BitVec 16 := hi ++ lo

/-- One bit of the CRC-16 (steps 3 to 5 of R184). -/
def crcStep (register : BitVec 16) (bit : Bool) : BitVec 16 :=
  if register.msb ^^ bit then (register <<< 1) ^^^ 0x8005#16 else register <<< 1

/-- The bits of a byte, least significant first: TALK and RPT (R184). -/
def lsbFirst (b : Byte) : List Bool := (List.range 8).map (fun k => b.getLsbD k)

/-- The bits of a byte, most significant first: the serial memory (R184). -/
def msbFirst (b : Byte) : List Bool := (List.range 8).map (fun k => b.getMsbD k)

/-- The CRC-16 of a run of bytes, each given by its bits in the carrier's order (R184). -/
def crc16 (bits : Byte → List Bool) (bytes : List Byte) : BitVec 16 :=
  bytes.foldl (fun register b => (bits b).foldl crcStep register) 0xFFFF#16

/-- Bytes followed by their check field, least significant bit first: announcements and report records. -/
def withCheck (bytes : List Byte) : List Byte := bytes ++ bytes16 (crc16 lsbFirst bytes)

/-! ## Frame memory -/

/-- What a byte that is not listed reads as: DESIGN CHOICE (log 7). -/
def unwritten : Byte := 0

/-- The canonical form of frame memory above a bound: addresses strictly rising, no unlisted value listed. -/
def ramSortedFrom : Nat → List Host.Cell → Bool
  | _, [] => true
  | low, (a, b) :: rest => decide (low ≤ a) && decide (b ≠ unwritten) && ramSortedFrom (a + 1) rest

/-- The canonical form of frame memory. -/
def ramCanonical (ram : List Host.Cell) : Bool := ramSortedFrom 0 ram

/-- The byte at an address. -/
def ramRead (ram : List Host.Cell) (addr : Nat) : Byte :=
  match ram with
  | [] => unwritten
  | (a, b) :: rest => if a = addr then b else ramRead rest addr

/-- One byte written; the canonical form is kept. -/
def ramWrite (ram : List Host.Cell) (addr : Nat) (byte : Byte) : List Host.Cell :=
  match ram with
  | [] => if byte = unwritten then [] else [(addr, byte)]
  | (a, b) :: rest =>
    if addr < a then if byte = unwritten then (a, b) :: rest else (addr, byte) :: (a, b) :: rest
    else if addr = a then if byte = unwritten then rest else (addr, byte) :: rest
    else (a, b) :: ramWrite rest addr byte

/-- Bytes written at rising addresses. -/
def ramWriteBytes (ram : List Host.Cell) (addr : Nat) : List Byte → List Host.Cell
  | [] => ram
  | b :: rest => ramWriteBytes (ramWrite ram addr b) (addr + 1) rest

/-- Bytes read from rising addresses. -/
def ramReadBytes (ram : List Host.Cell) (addr count : Nat) : List Byte :=
  (List.range count).map (fun k => ramRead ram (addr + k))

/-- FREE VALUES: `count` bytes drawn at the counter (log 10). -/
def freeBytes (start count : Nat) : List Byte :=
  (List.range count).map (fun k => Config.freeByte (start + k))

/-! ## Held or running -/

/-- The Timebase runs from acceptance to the next reset, and is held otherwise (R5, R173, R174). -/
def State.running (s : State) : Bool := decide (s.loader.phase = .accepted)

/-- The station index as a number. -/
def State.own (s : State) : Nat := s.loader.index.toNat

/-- A happening of a running part: while the Timebase is held no happening is raised and no block takes one (R5, R23,
R40, R60, R76, R98, R134, R148, R156). -/
def State.whenRunning (s t : State) : State := if s.running then t else s

/-! ## The counters -/

/-- The membership state at the pixel clock that the counters hold (R34): that of the pixel's end where it has ended, whatever
has changed since, and `state`, as it stands, where it has not (DEDUCED, log 27). -/
def Timebase.pixelState (t : Timebase) (state : MembershipState) : MembershipState :=
  if t.phase = .ended then t.stateAtEnd else state

/-- The counters hold another pixel, whose beginning this is (R3). The pixel that they leave is the one before it (R34);
`state` is the membership state as it stands. -/
def Timebase.beginAt (t : Timebase) (state : MembershipState) (ln px : Nat) : Timebase :=
  { t with ln := ln, px := px, phase := .begun, wrapMet := false, stateBefore := t.pixelState state }

/-- The pixel ends, with the membership state as it stands (R34). -/
def Timebase.endAt (t : Timebase) (state : MembershipState) : Timebase :=
  { t with phase := .ended, stateAtEnd := state }

/-- The counters stand at a position; every other field of the Timebase is kept. A position outside the frame moves
nothing, since the counters stay within their ranges (R3). -/
def Timebase.moveTo (t : Timebase) (state : MembershipState) (fl ll ln px : Nat) : Timebase :=
  if 1 ≤ ln ∧ ln ≤ fl ∧ 1 ≤ px ∧ px ≤ ll then
    if t.ln = ln ∧ t.px = px then t else t.beginAt state ln px
  else t

/-- The pixel clock has counted on to the beginning of a pixel of the current frame (DESIGN CHOICE, log 1). -/
def State.moveTo (s : State) (ln px : Nat) : State :=
  { s with tb := s.tb.moveTo s.member.state s.settings.fl s.settings.ll ln px }

/-- The counters stand at a position whose pixel has come to its end. -/
def Timebase.moveToEnd (t : Timebase) (state : MembershipState) (fl ll ln px : Nat) : Timebase :=
  if 1 ≤ ln ∧ ln ≤ fl ∧ 1 ≤ px ∧ px ≤ ll then (t.moveTo state fl ll ln px).endAt state else t

/-- The pixel clock has counted on to the end of a pixel of the current frame, where its end's happening falls (R14 to R16,
R38, R42; DESIGN CHOICE, log 1): nothing more of that pixel is to come. -/
def State.moveToEnd (s : State) (ln px : Nat) : State :=
  { s with tb := s.tb.moveToEnd s.member.state s.settings.fl s.settings.ll ln px }

/-! ## The report queue (R177) -/

/-- What on-change mode keeps of a FRAME record (R179). -/
def FrameRecord.key (f : FrameRecord) : FrameKey := ⟨f.outcome, f.state, f.r, f.hold⟩

/-- The last queued FRAME after a record has been queued (R179). -/
def ReportBody.keyOr (b : ReportBody) (old : Option FrameKey) : Option FrameKey :=
  match b with
  | .frame f => some f.key
  | .event _ _ => old

/-- The queue has a place for a record (R177). -/
def ReportPort.hasRoom (p : ReportPort) : Bool := decide (p.queue.length < Config.reportQueue)

/-- A post: queued with the lost count, or lost and counted when the queue is full (R177). -/
def ReportPort.post (p : ReportPort) (body : ReportBody) : ReportPort :=
  if p.hasRoom then
    { p with queue := p.queue ++ [⟨body, p.lost⟩], lost := 0, lastFrame := body.keyOr p.lastFrame }
  else { p with lost := p.lost + 1 }

/-- An event posted with the AFN that the Timebase holds (R180). -/
def State.postEvent (s : State) (e : Event) : State :=
  { s with report := s.report.post (.event s.tb.afn e) }

/-! ## Transfers between clock domains (R142, R143, R149, R151, R152, R153, R158)

What has been sent arrives once and in the order sent (R142): a command that takes something else than the next on its way
has no effect (log 9). -/

/-- A report leaves the Input Port for the PCLK domain (R142). -/
def Transit.sendReport (t : Transit) (r : InputReport) : Transit := { t with toPclk := t.toPclk ++ [r] }

/-- A report is the next to arrive in the PCLK domain (R142). -/
def Transit.nextReport (t : Transit) (r : InputReport) : Bool := decide (t.toPclk.head? = some r)

/-- The next report has arrived: it is no longer on its way. -/
def Transit.takeReport (t : Transit) : Transit := { t with toPclk := t.toPclk.tail }

/-- A line start leaves for the Memory Port (R18, R149). -/
def Transit.sendRefresh (t : Transit) : Transit := { t with refreshes := t.refreshes + 1 }

/-- A line start is on its way. -/
def Transit.nextRefresh (t : Transit) : Bool := decide (t.refreshes ≠ 0)

/-- A line start has arrived. -/
def Transit.takeRefresh (t : Transit) : Transit := { t with refreshes := t.refreshes - 1 }

/-- A finished line or a discard leaves for the Memory Port (R143, R123). -/
def Transit.sendMemory (t : Transit) (m : MemoryItem) : Transit := { t with toMemory := t.toMemory ++ [m] }

/-- A finished line or a discard is the next to arrive at the Memory Port. -/
def Transit.nextMemory (t : Transit) (m : MemoryItem) : Bool := decide (t.toMemory.head? = some m)

/-- The next finished line or discard has arrived. -/
def Transit.takeMemory (t : Transit) : Transit := { t with toMemory := t.toMemory.tail }

/-- A discard of `slot` is on its way to the Memory Port: what the port still holds of that slot is of the discarded frame,
since every line of a later frame comes after the discard (R123, R152). -/
def Transit.discards (t : Transit) (slot : Nat) : Bool := decide (.discard slot ∈ t.toMemory)

/-- Items of the reader leave for the Memory Port, in order (R158). -/
def Transit.sendReader (t : Transit) (ms : List ReaderMessage) : Transit :=
  { t with readerItems := t.readerItems ++ ms }

/-- An item of the reader is the next to arrive at the Memory Port. -/
def Transit.nextReader (t : Transit) (m : ReaderMessage) : Bool := decide (t.readerItems.head? = some m)

/-- The next item of the reader has arrived. -/
def Transit.takeReader (t : Transit) : Transit := { t with readerItems := t.readerItems.tail }

/-- Read data leaves for the Output Pipe (R151). -/
def Transit.sendRead (t : Transit) (d : ReadData) : Transit := { t with reads := t.reads ++ [d] }

/-- Read data is the next to arrive at the Output Pipe. -/
def Transit.nextRead (t : Transit) (d : ReadData) : Bool := decide (t.reads.head? = some d)

/-- The next read data has arrived. -/
def Transit.takeRead (t : Transit) : Transit := { t with reads := t.reads.tail }

/-- A command that takes what has been sent: it has its effect when what it takes is the next to arrive (log 9). -/
def State.whenNext (s : State) (next : Bool) (t : State) : State := if next then t else s

end Sys2Proof.Machine
end

