-- ==== Sys2Proof/Machine/Operands.lean ====
section
/-! DEFINITION. What commands carry, and where in the frame they fall: cell levels (R38), positions (R14 to R17) and the
geometry of lines and bursts (R147). -/

namespace Sys2Proof

/-! ## Cell levels -/

/-- The level of a cell is the level of at least two of its three samples (R38). -/
def Samples.level (c : Samples) : Level :=
  if c.first = c.middle then c.first else c.last

/-- Three samples of one level. -/
def Samples.steady (l : Level) : Samples := ⟨l, l, l⟩

/-- The levels of the sixteen roll-call cells (R56). A cell for which no samples are given reads as released. -/
def rollCallLevels (cells : List Samples) : List Level :=
  (List.range Config.stations).map (fun k => ((cells[k]?).map Samples.level).getD .high)

/-! ## The middle of a cell (R16) -/

/-- m = floor(CL / 2) + 1. -/
def Settings.middle (c : Settings) : Nat := c.cl / 2 + 1

/-! ## Bursts and lines of frame memory (R147) -/

/-- Bursts of one image line: ceil(3 × WW / 64). -/
def Settings.bursts (c : Settings) : Nat := (3 * c.ww + 63) / 64

/-- The pitch of a line in bytes. -/
def Settings.pitch (c : Settings) : Nat := c.bursts * 64

/-- The size of a frame slot in bytes. -/
def Settings.slotSize (c : Settings) : Nat := c.wh * c.pitch

/-- The address of burst `burst` of image line `line` of frame slot `slot`. -/
def Settings.burstAddress (c : Settings) (slot line burst : Nat) : Nat :=
  slot * c.slotSize + line * c.pitch + burst * 64

/-! ## Talk slots and their cells (R15, R42) -/

/-- Whole cells of a talk slot. -/
def Settings.slotCapacity (c : Settings) : Nat := c.sl * c.ll / c.cl

/-- First line of talk slot `i`. -/
def Settings.slotFirstLine (c : Settings) (i : Nat) : Nat := c.tw + i * c.sl

/-- Last line of talk slot `i`. -/
def Settings.slotLastLine (c : Settings) (i : Nat) : Nat := c.tw + (i + 1) * c.sl - 1

/-- Line of slot position `p`, counted from 1, of talk slot `i`. -/
def Settings.slotLine (c : Settings) (i p : Nat) : Nat := c.slotFirstLine i + (p - 1) / c.ll

/-- Pixel of slot position `p`. -/
def Settings.slotPixel (c : Settings) (p : Nat) : Nat := (p - 1) % c.ll + 1

/-- The talk slot that a line lies in. -/
def Settings.slotOfLine (c : Settings) (ln : Nat) : Option Nat :=
  if c.tw ≤ ln ∧ ln < c.tw + c.n * c.sl then some ((ln - c.tw) / c.sl) else none

/-- The slot position of a pixel that lies in talk slot `i`, counted from 1. -/
def Settings.slotPosition (c : Settings) (i ln px : Nat) : Nat := (ln - c.slotFirstLine i) * c.ll + px

/-- The cell of a slot position, and the cell pixel 1 to CL. -/
def Settings.cellOf (c : Settings) (p : Nat) : Nat × Nat := ((p - 1) / c.cl, (p - 1) % c.cl + 1)

/-- The last slot position at which the cell's level is settled: cell pixel m + 1 of cell `k` (R38). -/
def Settings.cellSettled (c : Settings) (k : Nat) : Nat := k * c.cl + c.middle + 1

/-! ## Image lines (R14) -/

/-- The frame line of image line `j`. -/
def Settings.imageLn (c : Settings) (j : Nat) : Nat := c.va0 + c.wy + j

/-- The pixel of window column `p`. -/
def Settings.columnPx (c : Settings) (p : Nat) : Nat := c.ha0 + c.wx + p

/-- The last pixel of an image line. -/
def Settings.lastColumnPx (c : Settings) : Nat := c.ha0 + c.wx + c.ww - 1

/-- The image line that a frame line carries. -/
def Settings.imageOfLine (c : Settings) (ln : Nat) : Option Nat :=
  if c.imageLn 0 ≤ ln ∧ ln < c.imageLn c.wh then some (ln - c.imageLn 0) else none

/-- The window column of a pixel. -/
def Settings.columnOfPx (c : Settings) (px : Nat) : Option Nat :=
  if c.columnPx 0 ≤ px ∧ px < c.columnPx c.ww then some (px - c.columnPx 0) else none

/-! ## Cut length (R33) -/

/-- FL - LN + 1 lines, or none at all for an edge captured at a frame start. -/
def cutLength (fl ln px : Nat) : Nat := if ln = 1 ∧ px = 1 then 0 else fl - ln + 1

end Sys2Proof
end

