-- ==== Sys2Proof/Machine/Mark.lean ====
section
/-! DEFINITION. The Mark Aligner's own operations (02_mark_alignment.md). What they lead other blocks to do is in
Machine/Frame.lean. -/

namespace Sys2Proof.Machine

open Sys2Proof

/-- The membership states that permit driving MARK and transmitting on TALK (R22, R43). -/
def MembershipState.mayDrive : MembershipState → Bool
  | .joining => true
  | .member => true
  | .parked => true
  | .config => false
  | .listen => false
  | .resting => false
  | .halted => false

/-- The role a frame takes from a pending role (R35). -/
def PendingRole.frameRole : PendingRole → FrameRole
  | .follow cut => .follow cut
  | .jump cut => .jump cut

/-- The frame just ended counts for the miss run: it began in TRACKING and was TRACKING at its end (R34). -/
def MarkAligner.countsMiss (m : MarkAligner) (cause : FrameCause) (ended : TimebaseState) : Bool :=
  decide (cause ≠ .first ∧ m.began = .tracking ∧ ended = .tracking)

/-- The frame just ended counts for the silence count: a natural frame that began and stayed in SEEKING (R26). -/
def MarkAligner.countsSilence (m : MarkAligner) (cause : FrameCause) (ended : TimebaseState) : Bool :=
  decide (cause = .natural ∧ m.began = .seeking ∧ ended = .seeking)

/-- The account of the frame just ended: the miss run (R34) and the silence count (R26). -/
def MarkAligner.closeFrame (m : MarkAligner) (cause : FrameCause) (ended : TimebaseState) : MarkAligner :=
  { m with
    missRun :=
      if m.countsMiss cause ended then if m.onTime then 0 else satSucc Config.missRunMax m.missRun
      else m.missRun
    silenceCount :=
      if m.countsSilence cause ended then satSucc Config.seekSilence m.silenceCount else m.silenceCount }

/-- The miss run has become 4 at this frame start (R34). -/
def MarkAligner.missReached (m : MarkAligner) (cause : FrameCause) (ended : TimebaseState) : Bool :=
  m.countsMiss cause ended && !m.onTime && decide (m.missRun + 1 = Config.markMissLimit)

/-- The silence count reaches the seek silence at this frame start (R26). -/
def MarkAligner.silenceReached (m : MarkAligner) (cause : FrameCause) (ended : TimebaseState) : Bool :=
  m.countsSilence cause ended && decide (Config.seekSilence ≤ m.silenceCount + 1)

/-- An on-time own edge: the flag is set, and the role NONE becomes LEAD (R29). -/
def MarkAligner.creditOwn (m : MarkAligner) : MarkAligner :=
  { m with onTime := true, frameRole := if m.frameRole = .none then .lead else m.frameRole }

/-- The account of the frame just begun (R27, R35). An edge taken at its pixel clock before the wrap belongs to it (R21). -/
def MarkAligner.openFrame (m : MarkAligner) (cause : FrameCause) (state : TimebaseState) : MarkAligner :=
  let opened : MarkAligner :=
    match cause, m.pendingRole with
    | .first, _ => { m with frameRole := .none, onTime := false }
    | _, some role => { m with frameRole := role.frameRole, onTime := true, pendingRole := none }
    | _, none => { m with frameRole := .none, onTime := false }
  let credited := if m.edgeBeforeWrap then opened.creditOwn else opened
  { credited with catchArmed := false, began := state, silenceHere := false, silenceTold := false,
                  edgeBeforeWrap := false }

/-- Tracking by silence: the frame just begun counts as TRACKING from its first pixel (R26). `told` says that the event of it
is queued. -/
def MarkAligner.trackBySilence (m : MarkAligner) (told : Bool) : MarkAligner :=
  { m with silenceCount := 0, began := .tracking, silenceHere := true, silenceTold := told }

/-- A seek order (R24). The frame that begins at its pixel counts as begun in SEEKING. -/
def MarkAligner.seekOrder (m : MarkAligner) : MarkAligner :=
  { m with
    missRun := 0
    silenceCount := 0
    onTime := false
    pendingRole := none
    frameRole := .none
    began := .seeking }

/-- The capture of an edge (R25, R28). -/
def MarkAligner.capture (m : MarkAligner) (ln px : Nat) (edge : EdgeClass) : MarkAligner :=
  { m with lastCapture := some ⟨ln, px, edge⟩ }

/-- An edge followed in SEEKING (R25). -/
def MarkAligner.followSeek (m : MarkAligner) (ln px cut : Nat) : MarkAligner :=
  { m.capture ln px .followedSeek with pendingRole := some (.jump cut), silenceCount := 0 }

/-- An edge at the frame start of tracking by silence is followed in place of the silence (R26): the frame that begins there
did not begin in TRACKING (log 14), and nothing is left to follow. -/
def MarkAligner.followInPlace (m : MarkAligner) : MarkAligner :=
  { m.followSeek 1 1 0 with began := .seeking, silenceHere := false, silenceTold := false }

/-- A catch edge credits the frame it ends (R30). -/
def MarkAligner.followCatch (m : MarkAligner) (ln px cut : Nat) : MarkAligner :=
  { m.capture ln px .catchEdge with onTime := true, pendingRole := some (.follow cut) }

/-- A stray edge is counted (R31). -/
def MarkAligner.countStray (m : MarkAligner) (ln px : Nat) : MarkAligner :=
  { m.capture ln px .stray with strayCount := m.strayCount + 1 }

/-- A stray edge that is followed (R31). -/
def MarkAligner.followStray (m : MarkAligner) (ln px cut : Nat) : MarkAligner :=
  { m.countStray ln px with pendingRole := some (.jump cut) }

/-- The class of an edge taken in TRACKING (R28). The catch zone is open where catch armed is set or `zone`, the catch-zone flag
of the position, is: the two agree (R27) but in a queue that takes the edge at (CZ, 1) before the entry, or skips the entry
(DEDUCED, log 29). -/
def MarkAligner.classify (m : MarkAligner) (cl : Nat) (zone : Bool) (ln px : Nat) : EdgeClass :=
  if ln = 1 ∧ px ≤ cl then .onTimeOwn else if m.catchArmed || zone then .catchEdge else .stray

/-! ## The filter (R20) -/

/-- What one sample of MARK does to the filter. -/
inductive FilterStep where
  | quiet
  | falling
  | rising
  deriving DecidableEq, Repr

/-- One sample: the first three after the start set the level without an edge, and later the third of three equal
samples changes it (R20). The change itself is left to the command that the edge is. -/
def MarkAligner.sample (m : MarkAligner) (l : Level) : MarkAligner × FilterStep :=
  match m.samples with
  | [_, b, c] =>
    let m' := { m with samples := [b, c, l] }
    if b = .low ∧ c = .low ∧ l = .low ∧ m.level = .high then (m', .falling)
    else if b = .high ∧ c = .high ∧ l = .high ∧ m.level = .low then (m', .rising)
    else (m', .quiet)
  | [a, b] =>
    ({ m with samples := [a, b, l],
              level := if a = .low ∧ b = .low ∧ l = .low then .low else .high }, .quiet)
  | earlier => ({ m with samples := earlier ++ [l] }, .quiet)

end Sys2Proof.Machine
end

