-- ==== Sys2Proof/Machine/Link.lean ====
section
/-! DEFINITION. The Link Interface (03_the_array_link.md): the announcement as bytes (R45, R183), as cells (R41, R42),
the receiver (R48 to R53) and the vote cells (R55 to R58). -/

namespace Sys2Proof.Machine

open Sys2Proof

/-! ## The announcement as bytes (R45, R51, R183) -/

/-- State codes of an announcement (Table 13-1). -/
def AnnouncedState.code : AnnouncedState → BitVec 4
  | .joining => 1
  | .member => 2
  | .parked => 3

/-- The state of a code; none for 0 and 4 to 15. -/
def announcedState (code : BitVec 4) : Option AnnouncedState :=
  if code = 1 then some .joining
  else if code = 2 then some .member
  else if code = 3 then some .parked
  else none

/-- The state that an announcing station announces. -/
def MembershipState.announced : MembershipState → AnnouncedState
  | .joining => .joining
  | .member => .member
  | .parked => .parked
  | .config => .parked
  | .listen => .parked
  | .resting => .parked
  | .halted => .parked

/-- The fields of Table 3-2 that are not computed. -/
structure Snapshot where
  sender : BitVec 4
  heard : Announcement
  readyFull : Bool
  inputAlive : Bool
  withdrawPending : Bool
  deriving DecidableEq, Repr

/-- Byte 3 of an announcement: state, and the four flags (Table 13-1). -/
def Snapshot.stateByte (a : Snapshot) : Byte :=
  BitVec.ofBool a.withdrawPending ++ BitVec.ofBool a.inputAlive ++ BitVec.ofBool a.readyFull ++
    BitVec.ofBool a.heard.shown.isSome ++ a.heard.state.code

/-- An announcement before its check field (Table 13-1). -/
def Snapshot.body (a : Snapshot) : List Byte :=
  [(0xA#4 ++ a.sender : BitVec 8)] ++ bytes16 a.heard.afn ++ [a.stateByte] ++ bytes16 (a.heard.shown.getD 0) ++
    [BitVec.ofNat 8 a.heard.ready.length] ++ a.heard.ready.flatMap bytes16 ++ bytes16 a.heard.heardMap

/-- The message of an announcement: 11 + 2 × count bytes (R183). -/
def Snapshot.bytes (a : Snapshot) : List Byte := withCheck a.body

/-- The 16-bit fields of a run of bytes, two bytes each. -/
def words16 : List Byte → List (BitVec 16)
  | hi :: lo :: rest => word16 hi lo :: words16 rest
  | _ => []

/-- The checks of R51 on a complete message received in talk slot `slot`, with the length that its count calls for (R50), and the
record of a valid one. -/
def parseAnnouncement (slot : Nat) (message : List Byte) : Option Announcement :=
  match message with
  | head :: afnHi :: afnLo :: stateByte :: shownHi :: shownLo :: count :: rest =>
    let ready := words16 (rest.take (2 * count.toNat))
    match words16 (rest.drop (2 * count.toNat)), announcedState (stateByte.extractLsb' 0 4) with
    | [heardMap, check], some state =>
      if head.extractLsb' 4 4 = 0xA#4 ∧ (head.extractLsb' 0 4).toNat = slot ∧ count.toNat ≤ 3 ∧
          message.length = 11 + 2 * count.toNat ∧ strictlyIncreasing ready ∧
          check = crc16 lsbFirst (message.take (9 + 2 * count.toNat)) then
        some ⟨word16 afnHi afnLo, state, if stateByte.getLsbD 4 then some (word16 shownHi shownLo) else none,
          ready, heardMap⟩
      else none
    | _, _ => none
  | _ => none

/-! ## The announcement as cells (R41, R42) -/

/-- The level of a cell, 0 to 10, of a character (R41). -/
def characterCell (first : Bool) (byte : Byte) (cell : Nat) : Level :=
  if cell = 0 then .low
  else if cell ≤ 8 then if byte.getLsbD (cell - 1) then .high else .low
  else if cell = 9 then if first then .high else .low
  else .high

/-- The level of cell `k` of the own talk slot for a message (R42). -/
def messageCell (message : List Byte) (k : Nat) : Level :=
  if k < 2 then .high
  else
    match message[(k - 2) / 11]? with
    | some byte => characterCell (decide ((k - 2) / 11 = 0)) byte ((k - 2) % 11)
    | none => .high

/-- The last cell of a message: its last stop cell (R42). -/
def lastStopCell (message : List Byte) : Nat := 11 * message.length + 1

/-! ## Frame start and transmission (R40, R43, R44) -/

/-- What every frame start sets (R40, R46). The receive phase is left to the next slot begin. -/
def LinkInterface.frameStart (l : LinkInterface) : LinkInterface :=
  { l with
    tx := .idle
    snapshot := none
    readback := .pending
    claimDriven := false
    latched := .none
    latchTaken := false
    rollCall := List.replicate 16 none
    verdictLevel := none
    inputAlive := false
    cellSamples := [] }

/-- The transmission starts with its snapshot (R43). -/
def LinkInterface.startSending (l : LinkInterface) (message : List Byte) : LinkInterface :=
  { l with tx := .sending, snapshot := some message, charIndex := 0, cellIndex := 0 }

/-- The own slot begins without permission (R43). -/
def LinkInterface.staySilent (l : LinkInterface) : LinkInterface :=
  { l with tx := .idle, snapshot := none }

/-- A transmission in the SENDING phase ends early (R44). -/
def LinkInterface.endEarly (l : LinkInterface) : LinkInterface :=
  { l with tx := if l.tx = .sending then .sent else l.tx }

/-- The transmitter stands at cell `k` of the own slot (R42). -/
def LinkInterface.placeTransmitter (l : LinkInterface) (k : Nat) : LinkInterface :=
  if l.tx = .sending ∧ 2 ≤ k then { l with charIndex := (k - 2) / 11, cellIndex := (k - 2) % 11 } else l

/-! ## Reception (R48 to R53) -/

/-- The receiver at a slot begin (R48). -/
def LinkInterface.resetReceiver (l : LinkInterface) : LinkInterface :=
  { l with rx := .waiting, received := [], expected := none, activity := false, cellSamples := [] }

/-- The byte of eight bits gathered least significant first. -/
def byteOfBits (bits : List Bool) : Byte :=
  bits.foldr (fun bit (acc : Byte) => (acc <<< 1) ||| (if bit then 1#8 else 0#8)) 0#8

/-- A character has ended with its stop cell high: the lead check of R49 and the checks of R50. -/
def LinkInterface.endCharacter (l : LinkInterface) (byte : Byte) (lead : Level) : LinkInterface :=
  if lead = (if l.received.isEmpty then Level.high else Level.low) then
    let received := l.received ++ [byte]
    let expected := if received.length = 7 ∧ byte.toNat ≤ 3 then some (11 + 2 * byte.toNat) else l.expected
    let phase :=
      if received.length = 7 ∧ 3 < byte.toNat then .broken
      else if expected = some received.length then .complete
      else .between
    { l with received := received, expected := expected, rx := phase }
  else { l with rx := .broken }

/-- A cell of a character (R49). -/
def LinkInterface.characterStep (l : LinkInterface) (cell : Nat) (bits : List Bool) (lead level : Level) :
    LinkInterface :=
  if cell ≤ 8 then
    { l with rx := .inCharacter (cell + 1) (bits ++ [decide (level = .high)]) lead }
  else if cell = 9 then { l with rx := .inCharacter 10 bits level }
  else if level = .low then { l with rx := .broken }
  else l.endCharacter (byteOfBits bits) lead

/-- A settled cell of a talk slot, by the receive phase (R49). -/
def LinkInterface.receiveCell (l : LinkInterface) (level : Level) : LinkInterface :=
  let seen := { l with activity := l.activity || decide (level = .low), cellSamples := [] }
  match l.rx with
  | .waiting => if level = .low then { seen with rx := .inCharacter 1 [] .low } else seen
  | .between => if level = .low then { seen with rx := .inCharacter 1 [] .low } else seen
  | .inCharacter cell bits lead => seen.characterStep cell bits lead level
  | .complete => if level = .low then { seen with rx := .broken } else seen
  | .broken => seen

/-- The record of an uncut slot end, when the outcome is HEARD (R51, R52). -/
def LinkInterface.heardRecord (l : LinkInterface) (slot : Nat) : Option Announcement :=
  if l.rx = .complete then parseAnnouncement slot l.received else none

/-- The outcome of an uncut slot end, by what the receiver holds (R52). -/
def LinkInterface.outcome (l : LinkInterface) (slot : Nat) : SlotOutcome :=
  if (l.heardRecord slot).isSome then .heard
  else if l.rx = .waiting ∧ l.activity = false then .silent
  else .damaged

/-- The outcome of a cut slot end (R53). So too for the own slot whose transmission a reload ends before any cell of it has been
sampled low: R53, which R44 names, gives SILENT, against DAMAGED in the last row of R54 (DESIGN CHOICE, log 32). -/
def LinkInterface.cutOutcome (l : LinkInterface) : SlotOutcome :=
  if l.activity then .damaged else .silent

end Sys2Proof.Machine
end

