-- ==== Sys2Proof/Machine/Roster.lean ====
section
/-! DEFINITION. The Roster Table (04_the_roster_table.md): slot outcomes (R61, R62), frame starts (R64), the roll call
(R65), the clear (R66) and the derived results (R67 to R72). -/

namespace Sys2Proof.Machine

open Sys2Proof

/-- Entry `i`; an index above 15 reads as an empty entry. -/
def Roster.entry (t : Roster) (i : Nat) : RosterEntry := (t.entries[i]?).getD State.emptyEntry

/-! ## Slot outcomes -/

/-- An entry after a HEARD outcome (R61). -/
def RosterEntry.hear (e : RosterEntry) (a : Announcement) (receiveAfn : Count16) : RosterEntry :=
  { e with
    outcome := .heard
    record := some ⟨a, receiveAfn⟩
    heardRun := satSucc Config.heardRunMax e.heardRun
    missRun := 0 }

/-- A frame without HEARD is counted, and the record is dropped at the record expiry (R62, R64). -/
def RosterEntry.miss (e : RosterEntry) : RosterEntry :=
  { e with
    heardRun := 0
    missRun := satSucc Config.missRunMax e.missRun
    record := if satSucc Config.missRunMax e.missRun = Config.recordExpiry then none else e.record }

/-- An entry after a SILENT or DAMAGED outcome (R62). -/
def RosterEntry.notHeard (e : RosterEntry) (outcome : SlotOutcome) : RosterEntry :=
  { e.miss with outcome := outcome }

/-- The Roster Table takes the HEARD outcome of slot `i` with its record (R61). -/
def Roster.takeHeard (t : Roster) (i : Nat) (a : Announcement) (receiveAfn : Count16) : Roster :=
  { t with entries := t.entries.modify i (fun e => e.hear a receiveAfn) }

/-- The Roster Table takes a SILENT or DAMAGED outcome of slot `i` (R62). -/
def Roster.takeNotHeard (t : Roster) (i : Nat) (outcome : SlotOutcome) : Roster :=
  { t with entries := t.entries.modify i (fun e => e.notHeard outcome) }

/-! ## Frame start (R64) and clear (R66) -/

/-- Step 1 of R64 for an entry: a slot still PENDING counts as a frame without HEARD. -/
def RosterEntry.missIfPending (e : RosterEntry) : RosterEntry := if e.outcome = .pending then e.miss else e

/-- Steps 2 and 3 of R64 for an entry. -/
def RosterEntry.nextFrame (e : RosterEntry) : RosterEntry :=
  { e with previous := e.outcome, outcome := .pending, claimed := .unknown }

/-- The first `n` of a list of entries take step 1 of R64. -/
def missFirst : Nat → List RosterEntry → List RosterEntry
  | 0, es => es
  | _, [] => []
  | n + 1, e :: es => e.missIfPending :: missFirst n es

/-- Step 1 of R64: it is left out when the frame just ended was not a TRACKING frame. -/
def Roster.missedSlots (t : Roster) (n : Nat) (ended : TimebaseState) : Roster :=
  if ended = .tracking then { t with entries := missFirst n t.entries } else t

/-- A frame start (R64). The frame start of cause FIRST closes no frame. -/
def Roster.frameStart (t : Roster) (n : Nat) (cause : FrameCause) (ended : TimebaseState) : Roster :=
  let counted := if cause = .first then t else t.missedSlots n ended
  { entries := counted.entries.map RosterEntry.nextFrame
    r := []
    previousR := counted.r
    results := none }

/-! ## Roll call (R65) -/

/-- The claimed fields of the entries from index `i` up (R65). -/
def claimEntries (n : Nat) (levels : List Level) : Nat → List RosterEntry → List RosterEntry
  | _, [] => []
  | i, e :: es =>
    { e with claimed := if i < n ∧ (levels[i]?).getD .high = .low then .yes else .no } ::
      claimEntries n levels (i + 1) es

/-- The sixteen levels set the claimed fields, and R (R65). -/
def Roster.rollCall (t : Roster) (n : Nat) (levels : List Level) : Roster :=
  { t with
    entries := claimEntries n levels 0 t.entries
    r := (List.range Config.stations).filter (fun i => decide (i < n ∧ (levels[i]?).getD .high = .low)) }

/-! ## Derived results (R68 to R72) -/

/-- The outcome of entry `i` in the current frame is HEARD. -/
def Roster.heard (t : Roster) (i : Nat) : Bool := decide ((t.entry i).outcome = .heard)

/-- The record of entry `i`. -/
def Roster.recordOf (t : Roster) (i : Nat) : Option RosterRecord := (t.entry i).record

/-- heard-all (R68). -/
def Roster.heardAll (t : Roster) : Bool := t.r.all t.heard

/-- settled (R69). -/
def Roster.settled (t : Roster) : Bool :=
  t.r.all (fun i => decide (Config.settleCount ≤ (t.entry i).heardRun))

/-- The members of R other than the own index that are HEARD in the current frame (R70). -/
def Roster.heardPeers (t : Roster) (own : Nat) : List Nat :=
  t.r.filter (fun j => decide (j ≠ own) && t.heard j)

/-- The record of entry `j` carries a heard map with the flag of `own` clear (R70). -/
def Roster.doesNotHear (t : Roster) (own j : Nat) : Bool :=
  match t.recordOf j with
  | some rec => !rec.heard.heardMap.getLsbD own
  | none => false

/-- unheard-by-majority (R70). After an own withdrawal it is not evaluated until the station has claimed again, which `owed`
tells: also where previous R still holds the own index (R75, R111). -/
def Roster.unheardByMajority (t : Roster) (own : Nat) (owed : Bool) : Bool :=
  !owed && decide (own ∈ t.previousR) && decide (t.heardPeers own ≠ []) &&
    decide (2 * ((t.heardPeers own).filter (t.doesNotHear own)).length > (t.heardPeers own).length)

/-- Entry `j` is in step: MEMBER, its AFN its receive AFN, its shown the own shown (R71, R84). -/
def Roster.recordInStep (t : Roster) (ownShown : Option Content) (j : Nat) : Bool :=
  match t.recordOf j with
  | some rec =>
    decide (rec.heard.state = .member ∧ rec.heard.afn = rec.receiveAfn ∧ rec.heard.shown = ownShown)
  | none => false

/-- step agreement (R71). -/
def Roster.stepAgreement (t : Roster) (own : Nat) (ownShown : Option Content) : Nat :=
  (if own ∈ t.r then 1 else 0) + ((t.heardPeers own).filter (t.recordInStep ownShown)).length

/-- lead AFN (R72). -/
def Roster.leadAfn (t : Roster) : Option Count16 :=
  match t.r.find? t.heard with
  | some j => (t.recordOf j).map (fun rec => rec.heard.afn)
  | none => none

/-- The five results (R67). -/
def Roster.formResults (t : Roster) (own : Nat) (owed : Bool) (ownShown : Option Content) : Results where
  heardAll := t.heardAll
  settled := t.settled
  unheard := t.unheardByMajority own owed
  stepAgreement := t.stepAgreement own ownShown
  leadAfn := t.leadAfn

/-- The heard map of the next announcement: flag j set when the previous outcome of entry j is HEARD (R73). -/
def Roster.heardMap (t : Roster) : BitVec 16 :=
  (List.range Config.stations).foldl
    (fun w j => if (t.entry j).previous = .heard then w ||| (1#16 <<< j) else w) 0#16

/-! ## The Consent Unit's readings (R79, R80) -/

/-- The shown that record `j` carries, none when its record is absent too. -/
def Roster.shownOf (t : Roster) (j : Nat) : Option Content := (t.recordOf j).bind (fun rec => rec.heard.shown)

/-- The ready list of record `j`. -/
def Roster.readyOf (t : Roster) (j : Nat) : List Content :=
  ((t.recordOf j).map (fun rec => rec.heard.ready)).getD []

/-- The shown that the records of all members of R carry in common (R79): none when two differ or R is empty. -/
def Roster.commonShown (t : Roster) : Option (Option Content) :=
  match t.r with
  | [] => none
  | j :: rest => if rest.all (fun k => decide (t.shownOf k = t.shownOf j)) then some (t.shownOf j) else none

/-- The common list (R80). -/
def Roster.commonList (t : Roster) : List Content :=
  match t.r with
  | [] => []
  | j :: rest => (t.readyOf j).filter (fun c => rest.all (fun k => decide (c ∈ t.readyOf k)))

end Sys2Proof.Machine
end

