-- ==== Sys2Proof/Machine/Slots.lean ====
section
/-! DEFINITION. The Slot Table (07_frame_slots_and_the_ready_queue.md): admission, completion, discard, the orders of the
swap line, and the readings. -/

namespace Sys2Proof.Machine

open Sys2Proof

/-! ## Readings (R117, R130, R131) -/

/-- Record `i`; a number above 3 reads as a FREE record. -/
def SlotTable.slot (t : SlotTable) (i : Nat) : SlotRecord := (t.slots[i]?).getD State.freeSlot

/-- The content of slot `i`. -/
def SlotTable.contentOf (t : SlotTable) (i : Nat) : Option Content := (t.slot i).content

/-- The SHOWN content, or none. -/
def SlotTable.shownContent (t : SlotTable) : Option Content := t.shown.bind t.contentOf

/-- The ready list, oldest first. -/
def SlotTable.readyList (t : SlotTable) : List Content := t.readyQueue.filterMap t.contentOf

/-- The ready count. -/
def SlotTable.readyCount (t : SlotTable) : Nat := t.readyQueue.length

/-- The slot in state FILLING. -/
def SlotTable.fillingSlot (t : SlotTable) : Option Nat :=
  t.slots.findIdx? (fun s => decide (s.state = .filling))

/-- The lowest-numbered FREE slot. -/
def SlotTable.freeSlotNumber (t : SlotTable) : Option Nat :=
  t.slots.findIdx? (fun s => decide (s.state = .free))

/-- The READY slot that holds content `c`. -/
def SlotTable.readySlotOf (t : SlotTable) (c : Content) : Option Nat :=
  t.readyQueue.find? (fun i => decide (t.contentOf i = some c))

/-- A READY slot holds content `c` (R82). -/
def SlotTable.holdsReady (t : SlotTable) (c : Content) : Bool := (t.readySlotOf c).isSome

/-- There is room for a frame: step 1 of R119 and the condition of the READY pin (R131). -/
def SlotTable.hasRoom (t : SlotTable) : Bool :=
  t.fillingSlot.isNone && t.freeSlotNumber.isSome && decide (t.readyCount < Config.readyCap)

/-- A content is newer than the SHOWN content and than every READY content (R119 step 2, R122). -/
def SlotTable.newerThanHeld (t : SlotTable) (c : Content) : Bool :=
  newerThan c t.shownContent && t.readyList.all (fun r => newer c r)

/-! ## Records -/

/-- Slot `i` becomes FREE (R116). -/
def SlotTable.free (t : SlotTable) (i : Nat) : SlotTable :=
  { t with slots := t.slots.modify i (fun _ => State.freeSlot) }

/-- Every slot of a list becomes FREE. -/
def SlotTable.freeAll (t : SlotTable) : List Nat → SlotTable
  | [] => t
  | i :: rest => (t.free i).freeAll rest

/-- The READY slots of a list become FREE, leave the ready queue and are counted as skipped (R124, R127). -/
def SlotTable.skip (t : SlotTable) (stale : List Nat) : SlotTable :=
  { t.freeAll stale with
    readyQueue := t.readyQueue.filter (fun i => decide (i ∉ stale))
    skipped := t.skipped + BitVec.ofNat 16 stale.length }

/-! ## Admission (R119) -/

/-- The answer to an admission request. -/
inductive Admission where
  | admitted (slot : Nat)
  | noRoom
  | outOfOrder
  deriving DecidableEq, Repr

/-- The answer of R119: the first check that fails, or the slot admitted to. -/
def SlotTable.answer (t : SlotTable) (c : Content) : Admission :=
  if t.hasRoom then
    if t.newerThanHeld c then
      match t.freeSlotNumber with
      | some i => .admitted i
      | none => .noRoom
    else .outOfOrder
  else .noRoom

/-- The record of a frame just admitted (R119). -/
def fillingRecord (c : Content) : SlotRecord :=
  { state := .filling, content := some c, linesWritten := 0, closing := false }

/-- The records after an admission request: a refusal changes no record and is counted (R119, R132). -/
def SlotTable.request (t : SlotTable) (c : Content) : SlotTable :=
  match t.answer c with
  | .admitted i => { t with slots := t.slots.modify i (fun _ => fillingRecord c) }
  | .noRoom => { t with refused := t.refused + 1 }
  | .outOfOrder => { t with refused := t.refused + 1 }

/-! ## Completion (R121, R122) -/

/-- The FILLING slot `i` completes: READY at the end of the queue, or freed and skipped (R122). The record keeps its lines
written and its closing flag, which Table 7-1 gives a meaning in FILLING alone (DESIGN CHOICE, log 25). -/
def SlotTable.complete (t : SlotTable) (i : Nat) : SlotTable :=
  match t.contentOf i with
  | some c =>
    if t.newerThanHeld c then
      { t with slots := t.slots.modify i (fun s => { s with state := .ready })
               readyQueue := t.readyQueue ++ [i] }
    else { t.free i with skipped := t.skipped + 1 }
  | none => { t.free i with skipped := t.skipped + 1 }

/-- The FILLING slot completes when its closing flag is set and its lines written equal WH (R122). -/
def SlotTable.completeIfDone (t : SlotTable) (wh : Nat) : SlotTable :=
  match t.fillingSlot with
  | some i => if (t.slot i).closing ∧ (t.slot i).linesWritten = wh then t.complete i else t
  | none => t

/-- A line-written report (R121). -/
def SlotTable.lineWritten (t : SlotTable) (wh slot line : Nat) : SlotTable :=
  if t.fillingSlot = some slot ∧ (t.slot slot).linesWritten = line then
    ({ t with slots := t.slots.modify slot (fun s => { s with linesWritten := s.linesWritten + 1 }) } :
      SlotTable).completeIfDone wh
  else t

/-- A FRAME_CLOSE report (R121). -/
def SlotTable.closeAccepted (t : SlotTable) (wh : Nat) : SlotTable :=
  match t.fillingSlot with
  | some i =>
    ({ t with slots := t.slots.modify i (fun s => { s with closing := true }) } : SlotTable).completeIfDone wh
  | none => t

/-! ## Discard (R123) -/

/-- The FILLING slot is discarded; with no slot FILLING nothing is done or counted. -/
def SlotTable.discard (t : SlotTable) : SlotTable :=
  match t.fillingSlot with
  | some i => { t.free i with defective := t.defective + 1 }
  | none => t

/-! ## Orders at the swap line (R124 to R127) -/

/-- Step 1 of R124 and the order of R126: the SHOWN slot becomes FREE. -/
def SlotTable.releaseShown (t : SlotTable) : SlotTable :=
  match t.shown with
  | some i => { t.free i with shown := none }
  | none => t

/-- Step 2 of R124: READY slot `i` becomes SHOWN and leaves the ready queue. Its lines written and closing flag stay as they
are (DESIGN CHOICE, log 25). -/
def SlotTable.showSlot (t : SlotTable) (i : Nat) : SlotTable :=
  { t with
    slots := t.slots.modify i (fun s => { s with state := .shown })
    readyQueue := t.readyQueue.filter (fun k => decide (k ≠ i))
    shown := some i }

/-- The READY slots whose content is older than `c` (R124). -/
def SlotTable.olderThan (t : SlotTable) (c : Content) : List Nat :=
  t.readyQueue.filter (fun i =>
    match t.contentOf i with
    | some r => newer c r
    | none => false)

/-- The READY slots whose content is older than or equal to `c` (R127). -/
def SlotTable.staleFor (t : SlotTable) (c : Content) : List Nat :=
  t.readyQueue.filter (fun i =>
    match t.contentOf i with
    | some r => newer c r || decide (r = c)
    | none => false)

/-- An order to swap to `c` (R124). When no READY slot holds it, no record changes. -/
def SlotTable.swapTo (t : SlotTable) (c : Content) : SlotTable :=
  match t.readySlotOf c with
  | some i =>
    let moved := t.releaseShown.showSlot i
    moved.skip (moved.olderThan c)
  | none => t

/-- An order to release stale frames (R127). -/
def SlotTable.releaseStale (t : SlotTable) (c : Content) : SlotTable := t.skip (t.staleFor c)

end Sys2Proof.Machine
end

