-- ==== Sys2Proof/Machine/Consent.lean ====
section
/-! DEFINITION. The Consent Unit (05_consent_verdict_and_the_swap.md): the frame start (R77), the target (R79 to R82), the
decision (R78, R83, R84), abstention (R87), the verdict (R89, R90) and the swap line (R92). -/

namespace Sys2Proof.Machine

open Sys2Proof

/-- A frame start, of any cause (R77): the reception-veto run is kept. -/
def ConsentUnit.frameStart (c : ConsentUnit) : ConsentUnit :=
  { c with
    role := .notVoting
    target := none
    targetReady := false
    order := .none
    hold := .notVoting
    verdict := .hold }

/-- The role of a roll-call close that carries results (R78). -/
def voteRole (state : MembershipState) (withdrawal : Option WithdrawalCause) (ownClaimed : Claimed) : VoteRole :=
  if state = .member then
    if withdrawal = none ∧ ownClaimed = .yes then .voting else .abstaining
  else .notVoting

/-- The base of the target, none when no base is taken (R79). -/
def targetBase (role : VoteRole) (state : MembershipState) (t : Roster) (heardAll : Bool) (ownShown : Option Content) :
    Option (Option Content) :=
  if t.r ≠ [] ∧ heardAll = true then
    if role = .voting then some ownShown
    else if state = .joining then t.commonShown
    else none
  else none

/-- T (R81, R82): the first entry of the common list that is newer than the base. -/
def targetOf (base : Option (Option Content)) (common : List Content) : Option Content :=
  match base with
  | some b => common.find? (fun c => newerThan c b)
  | none => none

/-- The step condition (R84): every member of R other than the own index is in step. -/
def stepCondition (t : Roster) (own : Nat) (ownShown : Option Content) : Bool :=
  t.r.all (fun j => decide (j = own) || t.recordInStep ownShown j)

/-- The hold reason of a VOTING member: the first of the four conditions that fails (R83). -/
def votingHold (heardAll stepHolds : Bool) (target : Option Content) (targetReady : Bool) : HoldReason :=
  if heardAll = false then .reception
  else if stepHolds = false then .step
  else if target = none then .noTarget
  else if targetReady = false then .notReady
  else .none

/-- What the Consent Unit decides at a roll-call close that carries results (R78 to R83). -/
def ConsentUnit.decideVote (c : ConsentUnit) (state : MembershipState) (withdrawal : Option WithdrawalCause)
    (own : Nat) (t : Roster) (heardAll : Bool) (table : SlotTable) : ConsentUnit :=
  let role := voteRole state withdrawal (t.entry own).claimed
  let target := targetOf (targetBase role state t heardAll table.shownContent) t.commonList
  let ready := match target with
    | some content => table.holdsReady content
    | none => false
  let hold := match role with
    | .voting => votingHold heardAll (stepCondition t own table.shownContent) target ready
    | .abstaining => .pendingWithdrawal
    | .notVoting => .notVoting
  { c with
    role := role
    target := target
    targetReady := ready
    hold := hold
    order := if role = .voting ∧ hold ≠ .none then .veto else .none }

/-- A withdrawal becomes pending before the latch: a VOTING member turns to ABSTAINING (R87). -/
def ConsentUnit.abstain (c : ConsentUnit) : ConsentUnit :=
  if c.role = .voting then
    { c with
      role := .abstaining
      order := .none
      hold := .pendingWithdrawal
      target := none
      targetReady := false }
  else c

/-- The verdict sample (R89, R90). -/
def ConsentUnit.takeVerdict (c : ConsentUnit) (level : Level) : ConsentUnit :=
  { c with
    verdict := if level = .high then .swap else .hold
    receptionRun :=
      if c.role = .voting then
        if c.hold = .reception then satSucc Config.receptionLimit c.receptionRun else 0
      else c.receptionRun }

/-- The order of R92 on the word STAYS is a swap to T. -/
def ConsentUnit.ordersSwap (c : ConsentUnit) : Option Content :=
  if c.role = .voting ∧ c.hold = .none ∧ c.verdict = .swap then c.target else none

end Sys2Proof.Machine
end

