-- ==== Sys2Proof/Machine/Input.lean ====
section
/-! DEFINITION. The Input Port's own operations (08_the_frame_input_port.md). What a word leads the Slot Table and the
other blocks to do is in Machine/Stream.lean. -/

namespace Sys2Proof.Machine

open Sys2Proof

/-- The number of the lowest EMPTY line buffer (R137). -/
def InputPort.emptyBufferNumber (p : InputPort) : Option Nat :=
  p.buffers.findIdx? (fun b => decide (b.state = .empty))

/-- Every buffer becomes EMPTY (R145). -/
def InputPort.emptyBuffers (p : InputPort) : InputPort :=
  { p with buffers := p.buffers.map (fun _ => State.emptyBuffer) }

/-- A word taken in IDLE that belongs to no frame (R136). -/
def InputPort.countStray (p : InputPort) : InputPort := { p with stray := p.stray + 1 }

/-- The flags window shuts at every word but FRAME_OPEN (R141). -/
def InputPort.shut (p : InputPort) : InputPort := { p with window := false }

/-- The Input Port's own part of a defect: DRAINING, the buffers empty, the pixel count none (R139). -/
def InputPort.drain (p : InputPort) : InputPort :=
  { p.emptyBuffers with state := .draining, pixelCount := none, window := false }

/-- The Input Port's own part of an abandonment (R135 step 1): the line under reception goes with its buffer. -/
def InputPort.abandon (p : InputPort) : InputPort := { p.emptyBuffers with pixelCount := none }

/-- An admitted FRAME_OPEN (R135 steps 4 and 5). -/
def InputPort.startFilling (p : InputPort) (slot : Nat) : InputPort :=
  { p with state := .filling, slot := slot, expectedLine := 0, pixelCount := none, window := true }

/-- A refused FRAME_OPEN (R135 steps 4 and 5). -/
def InputPort.startDraining (p : InputPort) : InputPort := { p with state := .draining, window := true }

/-- Line `j` opens in buffer `b` (R137). -/
def InputPort.openLine (p : InputPort) (b j : Nat) : InputPort :=
  { p with
    pixelCount := some 0
    window := false
    buffers := p.buffers.modify b (fun _ =>
      { state := .receiving, slot := p.slot, line := j, toGrant := 0, colours := [] }) }

/-- A pixel word joins the line under reception (R137). -/
def InputPort.storePixel (p : InputPort) (count : Nat) (colour : Colour) : InputPort :=
  { p with
    pixelCount := some (count + 1)
    window := false
    buffers := p.buffers.map (fun b =>
      if b.state = .receiving then { b with colours := b.colours ++ [colour] } else b) }

/-- The line is complete: its buffer waits with all its bursts to grant (R137, R143). -/
def InputPort.completeLine (p : InputPort) (bursts : Nat) : InputPort :=
  { p with
    pixelCount := none
    window := false
    expectedLine := p.expectedLine + 1
    buffers := p.buffers.map (fun b =>
      if b.state = .receiving then { b with state := .waiting, toGrant := bursts } else b) }

/-- An accepted FRAME_CLOSE (R138), and the end of draining (R140). -/
def InputPort.finish (p : InputPort) : InputPort := { p with state := .idle, window := false }

/-! ## The writer (R143) -/

/-- The bytes of colours in memory order: R, G, B (R147). -/
def colourBytes (c : Colour) : List Byte := [c.extractLsb' 16 8, c.extractLsb' 8 8, c.extractLsb' 0 8]

/-- The 64 bytes of burst `burst` of a line; the tail of the last burst is padding of 0 (R147). -/
def burstBytes (colours : List Colour) (burst : Nat) : List Byte :=
  let bytes := colours.flatMap colourBytes
  (List.range 64).map (fun k => (bytes[burst * 64 + k]?).getD 0)

/-- The WAITING buffer that holds line `line` of slot `slot`. -/
def InputPort.waitingBuffer (p : InputPort) (slot line : Nat) : Option Nat :=
  p.buffers.findIdx? (fun b => decide (b.state = .waiting ∧ b.slot = slot ∧ b.line = line))

/-- The grant of a burst of buffer `b`: the count falls, and the last burst frees the buffer (R143, R150). -/
def InputPort.grantBurst (p : InputPort) (b : Nat) (last : Bool) : InputPort :=
  { p with
    buffers := p.buffers.modify b (fun x =>
      if last then State.emptyBuffer else { x with toGrant := x.toGrant - 1 }) }

end Sys2Proof.Machine
end

