-- ==== Sys2Proof/Machine/Memory.lean ====
section
/-! DEFINITION. The Memory Port (09_the_frame_memory_port.md): claims (R149), the arbiter (R150), completion (R151),
discards and withdrawals (R152, R153), and what a reset leaves of a burst in flight (R148). -/

namespace Sys2Proof.Machine

open Sys2Proof

/-! ## Claims -/

/-- A line start reaches the refresh lane: placed, or merged as overdue (R149). -/
def MemoryPort.claimRefresh (p : MemoryPort) : MemoryPort :=
  { p with refresh := match p.refresh with
      | .absent => .present false
      | .present _ => .present true }

/-- A finished line joins the end of the writer claims (R149). -/
def MemoryPort.claimWriter (p : MemoryPort) (slot line : Nat) : MemoryPort :=
  { p with writers := p.writers ++ [⟨slot, line, 0⟩] }

/-- The bursts of an image line, in burst-index order (R149). -/
def lineBursts (slot line bursts : Nat) : List ReaderBurst :=
  (List.range bursts).map (fun b => ⟨slot, line, b⟩)

/-- An item of the reader's claims: the removal at a frame start, or the bursts of a line (R149, R158). -/
def MemoryPort.claimReader (p : MemoryPort) (bursts : Nat) : ReaderItem → MemoryPort
  | .frameStart => { p with readers := [] }
  | .claims slot line => { p with readers := p.readers ++ lineBursts slot line bursts }

/-- A withdrawal removes every reader claim of the line that waits (R153). -/
def MemoryPort.withdraw (p : MemoryPort) (line : Nat) : MemoryPort :=
  { p with readers := p.readers.filter (fun r => decide (r.line ≠ line)) }

/-- A writer burst of the discarded frame takes the drop mark (R152). -/
def Burst.dropIfOf (b : Burst) (slot : Nat) : Burst :=
  match b with
  | .refresh => .refresh
  | .reader s l n => .reader s l n
  | .writer s l n data drop => .writer s l n data (drop || decide (s = slot))

/-- A discard: the frame's writer claims go, and its burst in flight takes the drop mark (R152). -/
def MemoryPort.discard (p : MemoryPort) (slot : Nat) : MemoryPort :=
  { p with
    writers := p.writers.filter (fun w => decide (w.slot ≠ slot))
    inFlight := p.inFlight.map (fun b => b.dropIfOf slot) }

/-! ## The arbiter (R150) -/

/-- A claim that can be granted. -/
inductive Claim where
  | refresh
  | reader (claim : ReaderBurst) (rest : List ReaderBurst)
  | writer (claim : WriterLine) (rest : List WriterLine)
  deriving DecidableEq, Repr

/-- The refresh claim, when it waits with its overdue mark as given. -/
def MemoryPort.refreshChoice (p : MemoryPort) (overdue : Bool) : Option Claim :=
  if p.refresh = .present overdue then some .refresh else none

/-- The oldest reader claim. -/
def MemoryPort.readerChoice (p : MemoryPort) : Option Claim :=
  match p.readers with
  | [] => none
  | r :: rest => some (.reader r rest)

/-- The lowest burst not yet granted of the oldest writer line. -/
def MemoryPort.writerChoice (p : MemoryPort) : Option Claim :=
  match p.writers with
  | [] => none
  | w :: rest => some (.writer w rest)

/-- The first claim found in the order of R150: overdue refresh, urgent reader, writer, reader, refresh. -/
def MemoryPort.choice (p : MemoryPort) (urgent : Bool) : Option Claim :=
  (p.refreshChoice true).or <|
    (if urgent then p.readerChoice else none).or <|
      p.writerChoice.or <|
        (if urgent then none else p.readerChoice).or (p.refreshChoice false)

/-- The WAITING buffer of a writer claim: none when the frame of the claim has been discarded (R145). -/
def State.claimBuffer (s : State) (w : WriterLine) : Option Nat :=
  if s.transit.discards w.slot then none else s.input.waitingBuffer w.slot w.line

/-- The grant of a writer burst: its 64 bytes are taken from the line buffer at once, and the last burst of the line frees
the buffer (R143, R150). A claim whose frame has been discarded, with the discard still on its way to the Memory Port, has no
buffer any more (R145): what is taken is a free value, and a later frame's line of the same slot and index is not touched
(R123; DESIGN CHOICE, log 10). -/
def State.grantWriter (s : State) (w : WriterLine) (rest : List WriterLine) : State :=
  let last := decide (s.settings.bursts ≤ w.next + 1)
  let writers := if last then rest else { w with next := w.next + 1 } :: rest
  match s.claimBuffer w with
  | some b =>
    { s with
      port := { s.port with
        writers := writers
        inFlight := some (.writer w.slot w.line w.next
          (burstBytes (((s.input.buffers[b]?).getD State.emptyBuffer).colours) w.next) false) }
      input := s.input.grantBurst b last }
  | none =>
    { s with
      port := { s.port with
        writers := writers
        inFlight := some (.writer w.slot w.line w.next (freeBytes s.free 64) false) }
      free := s.free + 64 }

/-- A grant decision: made whenever no burst is in flight and at least one claim waits (R150). -/
def State.grant (s : State) : State :=
  match s.port.inFlight with
  | some _ => s
  | none =>
    match s.port.choice s.out.urgent with
    | none => s
    | some .refresh => { s with port := { s.port with refresh := .absent, inFlight := some .refresh } }
    | some (.reader r rest) =>
      { s with port := { s.port with readers := rest, inFlight := some (.reader r.slot r.line r.burst) } }
    | some (.writer w rest) => s.grantWriter w rest

/-! ## Completion (R151) -/

/-- The burst's address in frame memory, none for a refresh (R147). -/
def Burst.address (c : Settings) : Burst → Option Nat
  | .refresh => none
  | .reader slot line burst => some (c.burstAddress slot line burst)
  | .writer slot line burst _ _ => some (c.burstAddress slot line burst)

/-- The burst lies within the capacity of frame memory (R147, R172). -/
def Burst.inMemory (c : Settings) (b : Burst) : Bool :=
  match b.address c with
  | none => true
  | some addr => decide (addr + 64 ≤ c.memoryBytes)

/-- The effect of a burst that ends: what it wrote, and what is delivered (R151). That frame memory is read and written at
the completion is a DESIGN CHOICE (log 8). A burst with the drop mark reports nothing (R152); a report sent before the Memory
Port took the discard is taken by the match of slot and line, like any other (R121). -/
def State.deliver (s : State) (b : Burst) : State :=
  match b with
  | .refresh => s
  | .reader slot line burst =>
    let data := ramReadBytes s.ram (s.settings.burstAddress slot line burst) 64
    { s with transit := s.transit.sendRead ⟨slot, line, burst, data⟩ }
  | .writer slot line burst data drop =>
    { s with
      ram := ramWriteBytes s.ram (s.settings.burstAddress slot line burst) data
      table :=
        if drop = false ∧ s.settings.bursts ≤ burst + 1 then
          s.table.lineWritten s.settings.wh slot line
        else s.table }

/-- The bus is idle after a completion. -/
def State.endBurst (s : State) : State := { s with port := { s.port with inFlight := none } }

/-! ## Reset (R148) -/

/-- The address of the 64-byte area that a reset cuts short: that of the burst in flight, a reader's or a writer's. -/
def State.cutArea (s : State) : Option Nat :=
  s.port.inFlight.bind (fun b => if b.inMemory s.settings then b.address s.settings else none)

/-- What a reset leaves of frame memory: the area of the burst in flight holds whatever the device left, which is a free value
(log 10). -/
def State.ramAfterReset (s : State) : List Host.Cell :=
  match s.cutArea with
  | some addr => ramWriteBytes s.ram addr (freeBytes s.free 64)
  | none => s.ram

end Sys2Proof.Machine
end

