-- ==== Sys2Proof/Machine/Output.lean ====
section
/-! DEFINITION. The Output Pipe (10_panel_output.md): the reader latch (R157), the fetch schedule (R158, R161), reader
completions (R159), urgent (R160) and underrun (R162). -/

namespace Sys2Proof.Machine

open Sys2Proof

/-! ## The line store (R155) -/

/-- The place of image line `j`: j mod 3. -/
def OutputPipe.place (o : OutputPipe) (j : Nat) : LinePlace := (o.places[j % 3]?).getD .vacant

/-- Window column `p` is resident when this many bursts are held (R155). -/
def columnResident (p count : Nat) : Bool := decide ((3 * p + 2) / 64 < count)

/-- The place holds line `j` with the mark ACTIVE; its count of bursts. -/
def OutputPipe.activeCount (o : OutputPipe) (j : Nat) : Option Nat :=
  match o.place j with
  | .holds line count .active _ => if line = j then some count else none
  | _ => none

/-- Line `j` is held and wholly resident (R155). -/
def OutputPipe.whollyResident (o : OutputPipe) (bursts j : Nat) : Bool :=
  match o.place j with
  | .holds line count _ _ => decide (line = j ∧ count = bursts)
  | .vacant => false

/-- Line `j` is in its place, with this mark. -/
def OutputPipe.marked (o : OutputPipe) (j : Nat) (mark : PlaceMark) : Bool :=
  match o.place j with
  | .holds line _ m _ => decide (line = j ∧ m = mark)
  | .vacant => false

/-- A place with its mark changed, when it holds line `j`. -/
def LinePlace.mark (x : LinePlace) (j : Nat) (mark : PlaceMark) : LinePlace :=
  match x with
  | .holds line count m bytes => if line = j then .holds line count mark bytes else .holds line count m bytes
  | .vacant => .vacant

/-- The place of line `j` takes a mark, when it holds that line. -/
def OutputPipe.setMark (o : OutputPipe) (j : Nat) (mark : PlaceMark) : OutputPipe :=
  { o with places := o.places.modify (j % 3) (fun x => x.mark j mark) }

/-! ## Urgent (R160) -/

/-- The condition of R160. -/
def OutputPipe.urgentCondition (o : OutputPipe) (wh bursts : Nat) : Bool :=
  o.latched.isSome && decide (o.currentLine < wh) &&
    ((o.marked o.currentLine .active && !o.whollyResident bursts o.currentLine) ||
      (decide (o.currentLine + 1 < wh) && !o.whollyResident bursts (o.currentLine + 1)))

/-- Urgent is changed at the happening that changes its condition (R160). -/
def OutputPipe.settleUrgent (o : OutputPipe) (wh bursts : Nat) : OutputPipe :=
  { o with urgent := o.urgentCondition wh bursts }

/-- Urgent, recomputed from the settings. -/
def State.settleUrgent (s : State) : State :=
  { s with out := s.out.settleUrgent s.settings.wh s.settings.bursts }

/-! ## The fetch schedule (R158) -/

/-- Line `j` takes its place, with a count of 0 and the mark ACTIVE. -/
def OutputPipe.placeLine (o : OutputPipe) (j : Nat) : OutputPipe :=
  { o with places := o.places.modify (j % 3) (fun _ => .holds j 0 .active []), nextLine := j + 1 }

/-- The next line to place has its turn: its claims go to the Memory Port (R158). When the latched slot is none, or every
line has been placed, the turn places nothing. -/
def State.placeTurn (s : State) : State :=
  match s.out.latched with
  | some slot =>
    if s.out.nextLine < s.settings.wh then
      { s with
        out := s.out.placeLine s.out.nextLine
        transit := s.transit.sendReader [.item (.claims slot s.out.nextLine)] }
    else s
  | none => s

/-- The latch of a frame start, FLIP, and the store emptied (R157, R158, R166). -/
def OutputPipe.latch (o : OutputPipe) (shown : Option Nat) : OutputPipe :=
  { o with
    previous := o.latched
    latched := shown
    flip := decide (shown ≠ none ∧ shown ≠ o.latched)
    places := o.places.map (fun _ => .vacant)
    nextLine := 0
    currentLine := 0 }

/-- A frame start at the Output Pipe (R157, R158, R166): the latch, the frame start as the first item of the reader's
claims, and the claims of lines 0 and 1. -/
def State.latchFrame (s : State) : State :=
  let shown := if s.member.state = .member then s.table.shown else none
  let latched : State :=
    { s with out := s.out.latch shown, transit := s.transit.sendReader [.item .frameStart] }
  latched.placeTurn.placeTurn.settleUrgent

/-- The end of image line `j`, normal or cut (R161). -/
def State.endImageLine (s : State) (j : Nat) : State :=
  let ended : State :=
    { s with
      out := { s.out.setMark j .ended with currentLine := j + 1 }
      transit := s.transit.sendReader [.withdraw j] }
  ended.placeTurn.settleUrgent

/-! ## Reader completions (R159) -/

/-- A place with one burst more. -/
def LinePlace.keep (x : LinePlace) (data : List Byte) : LinePlace :=
  match x with
  | .holds line count mark bytes => .holds line (count + 1) mark (bytes ++ data)
  | .vacant => .vacant

/-- A burst is accepted (R159). -/
def OutputPipe.accepts (o : OutputPipe) (d : ReadData) : Bool :=
  decide (o.latched = some d.slot ∧ o.activeCount d.line = some d.burst)

/-- A burst is kept in its place, or discarded (R159). -/
def OutputPipe.takeRead (o : OutputPipe) (d : ReadData) : OutputPipe :=
  if o.accepts d then { o with places := o.places.modify (d.line % 3) (fun x => x.keep d.data) } else o

/-! ## Underrun (R162) -/

/-- Column `p` of line `j`, due at this pixel, underruns. -/
def OutputPipe.underrunsAt (o : OutputPipe) (j p : Nat) : Bool :=
  o.latched.isSome &&
    match o.activeCount j with
    | some count => !columnResident p count
    | none => false

/-- Column `p` of image line `j` is due: when it is not resident the line is given up (R162). -/
def State.dueColumn (s : State) (j p : Nat) : State :=
  if s.out.underrunsAt j p then
    ({ s with
      out := { s.out.setMark j .underrun with underruns := s.out.underruns + 1 }
      transit := s.transit.sendReader [.withdraw j] } : State).settleUrgent
  else s

/-! ## The pixel (R163, R164) -/

/-- A component clamped to the range of the image (R164). -/
def clampComponent (low high c : Byte) : Byte := if c < low then low else if high < c then high else c

/-- A stored colour, clamped (R164): R, G and B from the high bits of PDAT down (DESIGN CHOICE, log 33). -/
def clampColour (c : Settings) (r g b : Byte) : Colour :=
  clampComponent c.clampLow c.clampHigh r ++ clampComponent c.clampLow c.clampHigh g ++
    clampComponent c.clampLow c.clampHigh b

/-- The stored colour of window column `p` (R147, R163), clamped. -/
def storedColour (c : Settings) (bytes : List Byte) (p : Nat) : Colour :=
  clampColour c ((bytes[3 * p]?).getD 0) ((bytes[3 * p + 1]?).getD 0) ((bytes[3 * p + 2]?).getD 0)

/-- The bytes that a place shows of line `j` at column `p`: those of that line, resident and not marked UNDERRUN. An ENDED line
still shows the pixel it ended at (R161, R163). -/
def LinePlace.shows (x : LinePlace) (j p : Nat) : Option (List Byte) :=
  match x with
  | .holds line count mark bytes =>
    if line = j ∧ mark ≠ .underrun ∧ columnResident p count then some bytes else none
  | .vacant => none

/-- The colour of window column `p` of image line `j` (R163, the three window rows). -/
def State.windowColour (s : State) (j p : Nat) : Colour :=
  match s.out.latched, (s.out.place j).shows j p with
  | some _, some bytes => storedColour s.settings bytes p
  | _, _ => s.settings.fill

end Sys2Proof.Machine
end

