-- ==== Sys2Proof/Machine/Report.lean ====
section
/-! DEFINITION. The Report Port (12_the_report_port.md): the bytes of its records (Tables 13-4 to 13-6), the posting of
FRAME records (R178, R179) and the transmitter (R176). -/

namespace Sys2Proof.Machine

open Sys2Proof

/-! ## Codes (13.4) -/

def MembershipState.code : MembershipState → Byte
  | .config => 0
  | .joining => 1
  | .member => 2
  | .parked => 3
  | .listen => 4
  | .resting => 5
  | .halted => 6

def FrameOutcome.code : FrameOutcome → Byte
  | .none => 0
  | .swapped => 1
  | .repeated => 2
  | .joined => 3
  | .founded => 4
  | .withdrew => 5

def HoldReason.code : HoldReason → Byte
  | .none => 0
  | .reception => 1
  | .step => 2
  | .noTarget => 3
  | .notReady => 4
  | .pendingWithdrawal => 5
  | .notVoting => 6

def FrameRole.code : FrameRole → Byte
  | .none => 0
  | .lead => 1
  | .follow _ => 2
  | .jump _ => 3

/-- The cut length of a FRAME record: 0 for the roles NONE and LEAD. -/
def FrameRole.cut : FrameRole → Nat
  | .none => 0
  | .lead => 0
  | .follow cut => cut
  | .jump cut => cut

def WithdrawalCause.code : WithdrawalCause → Byte
  | .leave => 1
  | .inputSilent => 2
  | .markLost => 3
  | .claimLost => 4
  | .unheard => 5
  | .reception => 6
  | .outOfStep => 7

def Event.code : Event → Byte
  | .started _ _ => 1
  | .configFault _ _ => 2
  | .trackingEdge _ => 3
  | .trackingSilence => 3
  | .markLost _ => 4
  | .joined _ => 5
  | .founded => 6
  | .withdrew _ => 7
  | .parked _ => 8
  | .rejoinIgnored _ => 9

/-- The four detail bytes of an event (Table 13-6). -/
def Event.detail : Event → List Byte
  | .started index n => [BitVec.zeroExtend 8 index, BitVec.ofNat 8 n, 0, 0]
  | .configFault code attempt => [BitVec.ofNat 8 code, BitVec.ofNat 8 attempt, 0, 0]
  | .trackingEdge cut => [0] ++ bytes16 (BitVec.ofNat 16 cut) ++ [0]
  | .trackingSilence => [1, 0, 0, 0]
  | .markLost state => [state.code, 0, 0, 0]
  | .joined target => bytes16 target ++ [0, 0]
  | .founded => [0, 0, 0, 0]
  | .withdrew cause => [cause.code, 0, 0, 0]
  | .parked former => [former.code, 0, 0, 0]
  | .rejoinIgnored state => [state.code, 0, 0, 0]

/-! ## Records as bytes -/

/-- A set of station indexes as a 16-bit value, bit i set for index i (Table 13-4). -/
def indexBits (r : List Nat) : BitVec 16 := r.foldl (fun w i => w ||| (1#16 <<< i)) 0#16

/-- Byte 3 of a FRAME record: the state in bits 3 to 0 and shown present in bit 4 (Table 13-4). -/
def FrameRecord.stateByte (f : FrameRecord) : Byte :=
  f.state.code ||| (if f.shown.isSome then 0x10#8 else 0#8)

/-- A FRAME record before its check field (Table 13-4). -/
def FrameRecord.body (f : FrameRecord) (lost : Count16) : List Byte :=
  [0x46#8] ++ bytes16 f.afn ++ [f.stateByte, f.outcome.code] ++ bytes16 (f.shown.getD 0) ++
    [BitVec.ofNat 8 f.readyCount] ++ bytes16 f.r ++ [f.hold.code, f.role.code] ++
    bytes16 (BitVec.ofNat 16 f.role.cut) ++
    [f.refused, f.defective, f.skipped, f.underruns, f.strays, f.strayInput] ++ bytes16 lost

/-- An EVENT record before its check field (Table 13-5). -/
def Event.body (e : Event) (afn lost : Count16) : List Byte :=
  [0x45#8, e.code] ++ bytes16 afn ++ e.detail ++ bytes16 lost

/-- The bytes of a record, check field included (Tables 13-4 and 13-5, R184). -/
def QueuedRecord.bytes (q : QueuedRecord) : List Byte :=
  match q.body with
  | .frame f => withCheck (f.body q.lost)
  | .event afn e => withCheck (e.body afn q.lost)

/-! ## Posting a FRAME record (R179) -/

/-- A formed FRAME record is posted in every-frame mode, and in on-change mode when it differs from the last queued. -/
def ReportPort.postFrame (p : ReportPort) (mode : ReportMode) (f : FrameRecord) : ReportPort :=
  match mode with
  | .everyFrame => p.post (.frame f)
  | .onChange => if p.lastFrame = some f.key then p else p.post (.frame f)

/-! ## The transmitter (R176) -/

/-- The oldest record leaves the queue, and the next begins at this pixel clock when one waits (R176; DESIGN CHOICE, log 22). -/
def ReportPort.recordSent (p : ReportPort) : ReportPort :=
  match p.queue with
  | [] => p
  | _ :: rest =>
    { p with queue := rest, tx := if rest.isEmpty then .idle else .sending 0 0 p.divisor }

/-- One pixel clock of the transmitter, and whether the last stop bit of the record has ended (R176). -/
def ReportPort.clock (p : ReportPort) : ReportPort × Bool :=
  match p.tx, p.queue with
  | .idle, [] => (p, false)
  | .idle, _ :: _ => ({ p with tx := .sending 0 0 p.divisor }, false)
  | .sending _ _ _, [] => ({ p with tx := .idle }, false)
  | .sending char bit left, record :: _ =>
    if 1 < left then ({ p with tx := .sending char bit (left - 1) }, false)
    else if bit < 9 then ({ p with tx := .sending char (bit + 1) p.divisor }, false)
    else if char + 1 < record.bytes.length then ({ p with tx := .sending (char + 1) 0 p.divisor }, false)
    else (p, true)

/-- The level of RPT (R176): high when idle, start low, data least significant first, stop high. -/
def ReportPort.rpt (p : ReportPort) : Level :=
  match p.tx, p.queue with
  | .sending char bit _, record :: _ =>
    if bit = 0 then .low
    else if bit ≤ 8 then
      if ((record.bytes[char]?).getD 0).getLsbD (bit - 1) then .high else .low
    else .high
  | _, _ => .high

end Sys2Proof.Machine
end

