-- ==== Sys2Proof/Machine/Membership.lean ====
section
/-! DEFINITION. The Membership Controller (06_station_membership.md): entry to LISTEN (R99), the start of joining (R100),
frame starts (R101, R102), pending withdrawals (R104 to R106), and the swap line (R107 to R111). -/

namespace Sys2Proof.Machine

open Sys2Proof

/-! ## Permission (R22, R43, R44) -/

/-- The station may drive MARK and transmit on TALK: TRACKING, and JOINING, MEMBER or PARKED (R22, R43). -/
def State.mayDrive (s : State) : Bool := decide (s.tb.state = .tracking) && s.member.state.mayDrive

/-- A transmission ends early where the permission has ended (R44). -/
def State.settleTransmission (s : State) : State := if s.mayDrive then s else { s with link := s.link.endEarly }

/-! ## Entry to LISTEN (R99) and the start of joining (R100) -/

/-- The Membership Controller's own part of an entry to LISTEN (R99). -/
def Membership.enterListen (m : Membership) : Membership :=
  { m with state := .listen, emptyRun := 0, unheardRun := 0, rest := 0, park := false, rejoin := false }

/-- An entry to LISTEN: the seek order (R10, R24), the clear of the roster (R66) and the Membership Controller's own
part (R99). -/
def State.enterListen (s : State) : State :=
  ({ s with
    tb := { s.tb with state := .seeking }
    mark := s.mark.seekOrder
    roster := State.resetRoster
    member := s.member.enterListen } : State).settleTransmission

/-- In LISTEN, a change of the timebase state to TRACKING is the start of joining (R100). -/
def Membership.startJoining (m : Membership) : Membership :=
  if m.state = .listen then { m with state := .joining, emptyRun := 0 } else m

/-- A track order (R10), with the start of joining that it is in LISTEN (R100). -/
def State.trackOrder (s : State) : State :=
  { s with tb := { s.tb with state := .tracking }, member := s.member.startJoining }

/-! ## Pending withdrawals (R104) -/

/-- A cause is raised only in MEMBER, and the first cause raised is kept (R104). -/
def Membership.raise (m : Membership) (cause : WithdrawalCause) : Membership :=
  if m.state = .member ∧ m.withdrawal = none then { m with withdrawal := some cause } else m

/-- A cause is raised: where a withdrawal becomes pending before the latch, a VOTING member abstains (R87, R88, R104). -/
def State.raise (s : State) (cause : WithdrawalCause) : State :=
  { s with
    member := s.member.raise cause
    consent :=
      if s.member.state = .member ∧ s.member.withdrawal = none ∧ s.link.latchTaken = false then s.consent.abstain
      else s.consent }

/-! ## Frame start (R101, R102) -/

/-- Step 1 of R101: a PARKED station with the rejoin request set enters LISTEN. -/
def State.rejoinStep (s : State) : State :=
  if s.member.state = .parked ∧ s.member.rejoin = true then s.enterListen else s

/-- Step 2 of R101: the rest count of a RESTING station. -/
def State.restStep (s : State) : State :=
  if s.member.state = .resting then
    if s.member.rest ≤ 1 then s.enterListen
    else { s with member := { s.member with rest := s.member.rest - 1 } }
  else s

/-- Step 3 of R101: the miss run handed with the frame start, if one was. -/
def State.missStep (s : State) (handed : Option Nat) : State :=
  match handed with
  | some run =>
    if Config.markMissLimit ≤ run then
      if s.member.state = .member then s.raise .markLost
      else if s.member.state = .joining then s.enterListen
      else s
    else s
  | none => s

/-- Step 4 of R101: a frame without results ends the row of empty roll calls of a JOINING station. -/
def State.emptyStep (s : State) (hadResults : Bool) : State :=
  if s.member.state = .joining ∧ hadResults = false then { s with member := { s.member with emptyRun := 0 } } else s

/-- The condition of R102: a MEMBER whose count is greater than a timeout that is not 0. -/
def State.inputSilent (s : State) (count : Nat) : Bool :=
  decide (s.member.state = .member ∧ s.settings.inputTimeout ≠ 0 ∧ s.settings.inputTimeout < count)

/-- Step 5 of R101: the input-silence count (R102). -/
def State.silenceStep (s : State) : State :=
  let count := satSucc Config.missRunMax s.member.inputSilence
  let counted : State := { s with member := { s.member with inputSilence := count } }
  if s.inputSilent count then counted.raise .inputSilent else counted

/-- The Membership Controller at a frame start (R97, R101): the frame start of cause FIRST takes no step. -/
def State.memberFrameStart (s : State) (cause : FrameCause) (handed : Option Nat) (hadResults : Bool) : State :=
  let opened : State := { s with member := { s.member with verdictLevel := none } }
  if cause = .first then opened
  else ((((opened.rejoinStep).restStep).missStep handed).emptyStep hadResults).silenceStep

/-! ## Roll-call close (R103, R105) -/

/-- R103: a JOINING station takes the lead AFN and counts an empty roll call. -/
def State.joinerRollCall (s : State) (results : Results) : State :=
  { s with
    tb := { s.tb with afn := results.leadAfn.getD s.tb.afn }
    member := { s.member with
      emptyRun := if s.roster.r = [] then satSucc Config.emptyRollCallLimit s.member.emptyRun else 0
      unheardRun := 0 } }

/-- The unheard run of a MEMBER (R105). -/
def Membership.countUnheard (m : Membership) (unheard : Bool) : Membership :=
  { m with unheardRun := if unheard then satSucc Config.unheardLimit m.unheardRun else 0 }

/-- Check 1 of R105. -/
def State.claimLostCheck (s : State) : State :=
  if (s.roster.entry s.own).claimed = .no then s.raise .claimLost else s

/-- Check 2 of R105. -/
def State.unheardCheck (s : State) (results : Results) : State :=
  let counted : State := { s with member := s.member.countUnheard results.unheard }
  if counted.member.unheardRun = Config.unheardLimit then counted.raise .unheard else counted

/-- Check 3 of R105. -/
def State.outOfStepCheck (s : State) (results : Results) : State :=
  if s.own ∈ s.roster.r ∧ 2 * results.stepAgreement ≤ s.roster.r.length then s.raise .outOfStep else s

/-- R105: the three causes of a MEMBER, in order. -/
def State.memberRollCall (s : State) (results : Results) : State :=
  ((s.claimLostCheck).unheardCheck results).outOfStepCheck results

/-- The Membership Controller at a roll-call close that carries results (R103, R105). -/
def State.membershipRollCall (s : State) (results : Results) : State :=
  if s.member.state = .member then s.memberRollCall results
  else if s.member.state = .joining then s.joinerRollCall results
  else { s with member := { s.member with unheardRun := 0 } }

/-! ## The swap line (R107 to R111) -/

/-- The swap-line word (R91, R107). -/
inductive SwapWord where
  | stays
  | withdraws (cause : WithdrawalCause)
  | joins (target : Content)
  | founds
  | failedJoin (target : Content)
  | none
  deriving DecidableEq, Repr

/-- The join conditions of R108 but T itself. -/
def State.joinReady (s : State) : Bool :=
  decide (s.member.verdictLevel = some .high ∧ s.roster.r ≠ [] ∧ s.consent.targetReady = true) &&
    match s.roster.results with
    | some results => results.heardAll && results.settled
    | none => false

/-- The word of a JOINING station (R107 to R110). The failed join is the word NONE with the effect of R109. -/
def State.joinerWord (s : State) : SwapWord :=
  match s.consent.target with
  | some target =>
    if s.joinReady then .joins target
    else if s.member.emptyRun = Config.emptyRollCallLimit then .founds
    else if s.member.verdictLevel = some .high then .failedJoin target
    else .none
  | none => if s.member.emptyRun = Config.emptyRollCallLimit then .founds else .none

/-- The swap-line word, from the state as it stands (R107). -/
def State.swapWord (s : State) : SwapWord :=
  match s.member.state with
  | .member =>
    match s.member.withdrawal with
    | some cause => .withdraws cause
    | none => .stays
  | .joining => s.joinerWord
  | .config => .none
  | .listen => .none
  | .resting => .none
  | .parked => .none
  | .halted => .none

/-- A withdrawal takes effect (R111). -/
def Membership.withdraw (m : Membership) (cause : WithdrawalCause) : Membership :=
  if cause = .leave ∨ m.park = true then
    { m with state := .parked, withdrawal := none, unheardRun := 0, park := false }
  else { m with state := .resting, withdrawal := none, unheardRun := 0, rest := Config.restFrames }

/-- A JOINING station becomes MEMBER (R108, R110). -/
def Membership.becomeMember (m : Membership) : Membership :=
  { m with state := .member, emptyRun := 0, unheardRun := 0 }

/-- STAYS: the Consent Unit orders a swap to T or a repeat (R92, R124, R125). -/
def State.stayAtSwap (s : State) : State :=
  match s.consent.ordersSwap with
  | some target => { s with table := s.table.swapTo target }
  | none => s

/-- WITHDRAWS (R111). Unheard-by-majority is not evaluated from here until the station has claimed again (R75). -/
def State.withdrawAtSwap (s : State) (cause : WithdrawalCause) : State :=
  (({ s with
    link := { s.link with claimOwed := true }
    table := s.table.releaseShown
    consent := { s.consent with receptionRun := 0 }
    member := s.member.withdraw cause } : State).postEvent (.withdrew cause)).settleTransmission

/-- JOINS (R108). -/
def State.joinAtSwap (s : State) (target : Content) : State :=
  ({ s with table := s.table.swapTo target, member := s.member.becomeMember } : State).postEvent (.joined target)

/-- FOUNDS (R110). -/
def State.foundAtSwap (s : State) : State :=
  ({ s with tb := { s.tb with afn := 0 }, member := s.member.becomeMember } : State).postEvent .founded

/-- The effect of a swap-line word (R92, R107 to R111). -/
def State.actOnWord (s : State) : SwapWord → State
  | .stays => s.stayAtSwap
  | .withdraws cause => s.withdrawAtSwap cause
  | .joins target => s.joinAtSwap target
  | .founds => s.foundAtSwap
  | .failedJoin target => { s with table := s.table.releaseStale target }
  | .none => s

/-- The outcome of the frame (R92, R93, R107). -/
def State.swapOutcome (s : State) : SwapWord → FrameOutcome
  | .stays => if s.consent.ordersSwap.isSome then .swapped else .repeated
  | .withdraws _ => .withdrew
  | .joins _ => .joined
  | .founds => .founded
  | .failedJoin _ => .none
  | .none => .none

/-- The FRAME record, from the values as they stand after the frame's order (R178). -/
def State.frameRecord (s : State) (outcome : FrameOutcome) : FrameRecord where
  afn := s.tb.afn
  state := s.member.state
  outcome := outcome
  shown := s.table.shownContent
  readyCount := s.table.readyCount
  r := indexBits s.roster.r
  hold := s.consent.hold
  role := s.mark.frameRole
  refused := loByte s.table.refused
  defective := loByte s.table.defective
  skipped := loByte s.table.skipped
  underruns := loByte s.out.underruns
  strays := loByte s.mark.strayCount
  strayInput := loByte s.input.stray

/-- The membership states that report a frame (R178). -/
def MembershipState.reports : MembershipState → Bool
  | .joining => true
  | .member => true
  | .parked => true
  | .config => false
  | .listen => false
  | .resting => false
  | .halted => false

/-- The FRAME record is formed and posted by the report mode (R178, R179). -/
def State.reportFrame (s : State) (before : MembershipState) (outcome : FrameOutcome) : State :=
  if before.reports || s.member.state.reports then
    { s with report := s.report.postFrame s.settings.reportMode (s.frameRecord outcome) }
  else s

/-- The swap line (R91 to R93, R107, R178). -/
def State.takeSwapLine (s : State) : State :=
  (s.actOnWord s.swapWord).reportFrame s.member.state (s.swapOutcome s.swapWord)

end Sys2Proof.Machine
end

