-- ==== Sys2Proof/Machine/Flags.lean ====
section
/-! DEFINITION. What the part shows outside, as functions of the state: the region flags (R11 to R17), the drives of the
three link lines (R22, R37) and the output pins (Table 2). -/

namespace Sys2Proof.Machine

open Sys2Proof

/-! ## Region flags: all outside their regions while the Timebase is held (R5) -/

/-- The counters lie in a range of lines and a range of pixels. -/
def State.inLines (s : State) (first last : Nat) : Bool :=
  s.running && decide (first ≤ s.tb.ln ∧ s.tb.ln ≤ last)

/-- The counters lie in a range of pixels. -/
def State.inPixels (s : State) (first last : Nat) : Bool :=
  s.running && decide (first ≤ s.tb.px ∧ s.tb.px ≤ last)

/-- The active flag (R12). -/
def State.activeFlag (s : State) : Bool :=
  s.inLines s.settings.va0 s.settings.va1 && s.inPixels s.settings.ha0 s.settings.ha1

/-- The HS flag (R13). -/
def State.hsFlag (s : State) : Bool := s.inPixels s.settings.hs0 s.settings.hs1

/-- The VS flag (R13). -/
def State.vsFlag (s : State) : Bool := s.inLines s.settings.vs0 s.settings.vs1

/-- The window flag, with the image line and the window column of the pixel (R14). -/
def State.windowAt (s : State) : Option (Nat × Nat) :=
  if s.running then
    match s.settings.imageOfLine s.tb.ln, s.settings.columnOfPx s.tb.px with
    | some j, some p => some (j, p)
    | _, _ => none
  else none

/-- The catch-zone flag (R17). -/
def State.catchZoneFlag (s : State) : Bool := s.inLines s.settings.cz s.settings.fl

/-- The talk slot of the pixel, its cell number and its cell pixel (R15). A position after the last whole cell is none. -/
def State.talkCellAt (s : State) : Option (Nat × Nat × Nat) :=
  match s.settings.slotOfLine s.tb.ln with
  | some i =>
    let cell := s.settings.cellOf (s.settings.slotPosition i s.tb.ln s.tb.px)
    if s.running = true ∧ cell.1 < s.settings.slotCapacity then some (i, cell.1, cell.2) else none
  | none => none

/-- The roll-call cell of the pixel and its cell pixel (R16). -/
def State.rollCallCellAt (s : State) : Option (Nat × Nat) :=
  let cell := s.settings.cellOf s.tb.px
  if s.running = true ∧ s.tb.ln = s.settings.vl ∧ cell.1 < Config.stations then some cell else none

/-- The cell pixel of the verdict cell (R16). -/
def State.verdictCellAt (s : State) : Option Nat :=
  if s.running = true ∧ s.tb.ln = s.settings.vl + 1 ∧ s.tb.px ≤ s.settings.cl then some s.tb.px else none

/-! ## The link lines: true when the station pulls the line low -/

/-- The drive of MARK (R22). -/
def State.markDrive (s : State) : Bool := s.running && decide (s.tb.ln = 1) && s.mayDrive

/-- The drive of TALK: the low cells of the own transmission (R37, R42). -/
def State.talkDrive (s : State) : Bool :=
  match s.talkCellAt, s.link.snapshot with
  | some (i, cell, _), some message =>
    decide (s.link.tx = .sending ∧ s.tb.state = .tracking ∧ i = s.own ∧ messageCell message cell = .low)
  | _, _ => false

/-- The claim is permitted: MEMBER with no withdrawal pending (R55). -/
def State.claimPermitted (s : State) : Bool :=
  decide (s.tb.state = .tracking ∧ s.member.state = .member ∧ s.member.withdrawal = none)

/-- The drive of VOTE in the own roll-call cell (R55). -/
def State.claimDrive (s : State) : Bool :=
  match s.rollCallCellAt with
  | some (cell, _) => decide (cell = s.own) && s.link.claimDriven && s.claimPermitted
  | none => false

/-- The drive of VOTE in the verdict cell (R57). -/
def State.verdictDrive (s : State) : Bool :=
  s.verdictCellAt.isSome &&
    decide (s.tb.state = .tracking ∧ s.link.latched = .veto ∧ s.link.claimDriven = true)

/-- The drive of VOTE (R37). -/
def State.voteDrive (s : State) : Bool := s.claimDrive || s.verdictDrive

/-! ## The pins -/

/-- The level of a panel pin: its polarity while the Timebase runs, low while it is held (R156, R165). -/
def State.panelPin (s : State) (activeHigh asserted : Bool) : Level :=
  if s.running then if asserted = activeHigh then .high else .low else .low

/-- PDAT (R163, R156), with R in bits 23 to 16, G in 15 to 8 and B in 7 to 0 (DESIGN CHOICE, log 33). -/
def State.pdat (s : State) : Colour :=
  if s.activeFlag then
    match s.windowAt with
    | some (j, p) => s.windowColour j p
    | none => s.settings.border
  else 0

/-- READY (R131): low from reset to the end of CONFIG and throughout HALTED. -/
def State.readyPin (s : State) : Level := if s.running && s.table.hasRoom then .high else .low

/-- ATTN (R182). -/
def MembershipState.attn : MembershipState → Level
  | .config => .low
  | .listen => .high
  | .joining => .high
  | .member => .low
  | .resting => .high
  | .parked => .low
  | .halted => .high

/-- A read transaction on the serial memory is under way: an attempt reads, and the pixel clock runs (R168, R170). -/
def Loader.transacts (l : Loader) : Bool := decide (l.phase = .reading) && !l.clockAbsent

/-- SCS (R168, R170): low while a transaction is under way. -/
def State.scs (s : State) : Level := if s.loader.transacts then .low else .high

/-- SCK (R168, R170): low between transactions. Within an attempt it runs at a rate that the data sheet gives, and an
attempt is one event here, so it then has no one level (DESIGN CHOICE, log 15). -/
def State.sck (s : State) : Option Level := if s.loader.transacts then none else some .low

/-- What SDO carries at the rising edges of SCK of one attempt: the read command 0x03 and three address bytes of 0, most
significant bit first, and then low while the 64 bytes are clocked in (R170). -/
def attemptSdo : List Level :=
  (([0x03, 0x00, 0x00, 0x00] : List Byte).flatMap msbFirst).map (fun bit => if bit then .high else .low) ++
    List.replicate (64 * 8) .low

/-- SDO at the `edge`-th rising edge of SCK of the attempt that reads, the first being 0 (R170). -/
def State.sdoAt (s : State) (edge : Nat) : Option Level :=
  if s.loader.transacts then attemptSdo[edge]? else none

/-- The output pins (Table 2), but for SDO, which State.sdoAt gives. The three link pins are low where the station drives
them and released where they are high. -/
structure Pins where
  mark : Level
  talk : Level
  vote : Level
  pdat : Colour
  de : Level
  hs : Level
  vs : Level
  flip : Level
  scs : Level
  sck : Option Level
  rpt : Level
  ready : Level
  attn : Level
  deriving DecidableEq, Repr

/-- A link line that the station pulls low, or releases. -/
def drivenLevel (drive : Bool) : Level := if drive then .low else .high

/-- Every output pin at the state's pixel clock. -/
def State.pins (s : State) : Pins where
  mark := drivenLevel s.markDrive
  talk := drivenLevel s.talkDrive
  vote := drivenLevel s.voteDrive
  pdat := s.pdat
  de := s.panelPin s.settings.deHigh s.activeFlag
  hs := s.panelPin s.settings.hsHigh s.hsFlag
  vs := s.panelPin s.settings.vsHigh s.vsFlag
  flip := s.panelPin s.settings.flipHigh (s.out.flip && decide (s.tb.ln = 1))
  scs := s.scs
  sck := s.sck
  rpt := s.report.rpt
  ready := s.readyPin
  attn := s.member.state.attn

end Sys2Proof.Machine
end

