-- ==== Sys2Proof/Machine/Frame.lean ====
section
/-! DEFINITION. Frame starts and reloads, which every block takes (R4, R6, R7, R26, R34, R64, R77, R101, R157), and the
falling edges that lead to them (R25 to R33). -/

namespace Sys2Proof.Machine

open Sys2Proof

/-! ## Slot ends (R52 to R54, R61, R62) -/

/-- The Roster Table and the readback take a slot's outcome (R54, R61, R62). -/
def State.takeOutcome (s : State) (i : Nat) (outcome : SlotOutcome) (record : Option Announcement) : State :=
  { s with
    roster := match record with
      | some a => s.roster.takeHeard i a s.tb.afn
      | none => s.roster.takeNotHeard i outcome
    link := { s.link with readback := if i = s.own then outcome else s.link.readback } }

/-- Slot `i` is the own slot, and the station did not transmit in it: the transmit phase stayed IDLE (R43). -/
def State.silentIn (s : State) (i : Nat) : Bool := decide (i = s.own ∧ s.link.tx = .idle)

/-- The record handed at the uncut end of slot `i` (R52). A valid message in the own slot of a station that did not transmit is
another's, and gives none (R54, R63). -/
def State.slotRecord (s : State) (i : Nat) : Option Announcement :=
  if s.silentIn i then none else s.link.heardRecord i

/-- The outcome settled at the uncut end of slot `i` (R52). The own slot of a station that did not transmit is DAMAGED where
another station drove the line, and so never HEARD (R54, second row). -/
def State.slotOutcome (s : State) (i : Nat) : SlotOutcome :=
  if s.silentIn i = true ∧ s.link.outcome i = .heard then .damaged else s.link.outcome i

/-- The end of talk slot `i`, uncut: in a TRACKING frame the outcome is settled and handed (R48, R52). -/
def State.endSlot (s : State) (i : Nat) : State :=
  let closed : State := { s with tb := { s.tb with openSlot := none } }
  if s.tb.state = .tracking then closed.takeOutcome i (s.slotOutcome i) (s.slotRecord i) else closed

/-- The cut end of the open talk slot, if one is open (R7, R53). -/
def State.cutSlot (s : State) : State :=
  match s.tb.openSlot with
  | some i =>
    let closed : State := { s with tb := { s.tb with openSlot := none } }
    if s.tb.state = .tracking then closed.takeOutcome i s.link.cutOutcome none else closed
  | none => s

/-- The cut end of the open image line, if one is open (R7, R161). -/
def State.cutImageLine (s : State) : State :=
  match s.tb.openLine with
  | some j => ({ s with tb := { s.tb with openLine := none } } : State).endImageLine j
  | none => s

/-! ## Frame start -/

/-- The Timebase at a frame start: pixel (1, 1) of a new frame, and the advance of AFN (R4, R6, R8). The pixel clock of a
reload is itself (1, 1), so the one before it stays the last of the frame just ended, and that pixel has still to end; at a
wrap the last is the one that the counters held. `state` is the membership state as it stands. -/
def Timebase.frameStart (t : Timebase) (cause : FrameCause) (state : MembershipState) : Timebase :=
  { t with
    ln := 1
    px := 1
    afn := if cause = .first then t.afn else t.afn + 1
    openSlot := none
    openLine := none
    phase := if cause = .reload then .sampled else .begun
    wrapMet := false
    stateBefore := if cause = .reload then t.stateBefore else t.pixelState state }

/-- The event of a miss run that becomes 4, with the membership state at the last pixel clock of the frame just ended
(R34). -/
def State.reportMarkLost (s : State) (reached : Bool) : State :=
  if reached then s.postEvent (.markLost s.tb.stateBefore) else s

/-- Seek silence is reached: the track order alone, founding silence and the event (R26, R100). -/
def State.takeSilence (s : State) (reached : Bool) : State :=
  if reached then
    ({ s with mark := s.mark.trackBySilence s.report.hasRoom } : State).trackOrder.postEvent .trackingSilence
  else s

/-- The blocks that a frame start opens without regard to the others (R4, R35, R40, R64, R77, R149). -/
def State.openFrame (s : State) (cause : FrameCause) (ended : TimebaseState) : State :=
  { s with
    tb := s.tb.frameStart cause s.member.state
    mark := (s.mark.closeFrame cause ended).openFrame cause s.tb.state
    link := s.link.frameStart
    roster := s.roster.frameStart s.settings.n cause ended
    consent := s.consent.frameStart
    transit := s.transit.sendRefresh }

/-- The miss run handed with a frame start that closes a frame which counts (R34). -/
def MarkAligner.handedMissRun (m : MarkAligner) (cause : FrameCause) (ended : TimebaseState) : Option Nat :=
  if m.countsMiss cause ended then some (m.closeFrame cause ended).missRun else none

/-- The events of the Mark Aligner at a frame start, and the track order of seek silence (R26, R34). -/
def State.markFrameStart (s : State) (cause : FrameCause) (ended : TimebaseState) : State :=
  ((s.openFrame cause ended).reportMarkLost (s.mark.missReached cause ended)).takeSilence
    (s.mark.silenceReached cause ended)

/-- A frame start, taken by every block (R4, R35, R34, R26, R40, R64, R77, R101, R157). `ended` is the timebase state at
the last pixel clock of the frame just ended. The order of a silence track order and a seek order is a DESIGN CHOICE
(log 13). -/
def State.frameStart (s : State) (cause : FrameCause) (ended : TimebaseState) : State :=
  ((s.markFrameStart cause ended).memberFrameStart cause (s.mark.handedMissRun cause ended)
    s.roster.results.isSome).latchFrame

/-- A natural frame start: a wrap that meets a reload already taken at its pixel clock has no further effect (R6). -/
def State.naturalFrameStart (s : State) : State :=
  if s.tb.wrapMet then { s with tb := { s.tb with wrapMet := false } } else s.frameStart .natural s.tb.state

/-! ## Reload -/

/-- A reload order, with the track order that comes with it where one does: the cut ends, then the frame start of cause
RELOAD (R6, R7, R10, R25, R44). -/
def State.reload (s : State) (track : Bool) : State :=
  let cut := (s.cutSlot).cutImageLine
  let quiet : State := { cut with link := cut.link.endEarly }
  (if track then quiet.trackOrder else quiet).frameStart .reload s.tb.state

/-! ## Falling edges (R25, R28 to R32) -/

/-- The record that tells of tracking by an edge takes the place of the one that tells of tracking by silence, the newest
of its kind (R26, last paragraph; DESIGN CHOICE, log 4). -/
def retellSilence (cut : Nat) : List QueuedRecord → List QueuedRecord
  | [] => []
  | q :: rest =>
    match q.body with
    | .event afn .trackingSilence =>
      if rest.any (fun x => match x.body with
          | .event _ .trackingSilence => true
          | _ => false) then q :: retellSilence cut rest
      else ⟨.event afn (.trackingEdge cut), q.lost⟩ :: rest
    | _ => q :: retellSilence cut rest

/-- An edge taken in SEEKING (R25). Where it meets a frame start the track order alone changes the state, and its role waits
for the next frame start (DEDUCED, log 14). The event carries the AFN held before the reload (DEDUCED, log 11). -/
def State.seekEdge (s : State) (ln px : Nat) : State :=
  let cut := cutLength s.settings.fl ln px
  let followed : State :=
    ({ s with mark := s.mark.followSeek ln px cut } : State).postEvent (.trackingEdge cut)
  if ln = 1 ∧ px = 1 then followed.trackOrder else followed.reload true

/-- An edge taken at the very frame start at which seek silence was reached is followed by R25 in its place (R26), with its
track order: a PARKED station with the rejoin request has entered LISTEN at that frame start, and starts joining (R99, R100,
R115). Where the event of the silence was lost to a full queue, so is that of the edge, counted once (R177). -/
def State.silenceEdge (s : State) : State :=
  ({ s with
    mark := s.mark.followInPlace
    report := { s.report with
      queue := if s.mark.silenceTold then retellSilence 0 s.report.queue else s.report.queue } } : State).trackOrder

/-- An on-time own edge (R29). -/
def State.onTimeEdge (s : State) (ln px : Nat) : State :=
  { s with mark := (s.mark.capture ln px .onTimeOwn).creditOwn }

/-- A catch edge (R30). -/
def State.catchEdge (s : State) (ln px : Nat) : State :=
  ({ s with mark := s.mark.followCatch ln px (cutLength s.settings.fl ln px) } : State).reload false

/-- A stray edge: a MEMBER ignores it, any other station follows it (R31), by the state at the moment it is taken (R32). Where
a JOINING station takes it first at (SW, 1), the swap line of that pixel lies ahead of the cut and does not occur in the frame
(R6; DESIGN CHOICE, log 24). -/
def State.strayEdge (s : State) (ln px : Nat) : State :=
  if s.member.state = .member then { s with mark := s.mark.countStray ln px }
  else ({ s with mark := s.mark.followStray ln px (cutLength s.settings.fl ln px) } : State).reload false

/-- An edge taken in TRACKING, by its class: the catch-zone flag is read together with LN and PX (R17, R28). -/
def State.trackingEdge (s : State) (ln px : Nat) : State :=
  match s.mark.classify s.settings.cl s.catchZoneFlag ln px with
  | .onTimeOwn => s.onTimeEdge ln px
  | .catchEdge => s.catchEdge ln px
  | .stray => s.strayEdge ln px
  | .followedSeek => s

/-- An edge where the counters stand (R25, R28). One at the frame start of seek silence is followed in its place (R26), whatever
the timebase state is after that frame start. -/
def State.edgeHere (s : State) : State :=
  if s.tb.ln = 1 ∧ s.tb.px = 1 ∧ s.mark.silenceHere = true then s.silenceEdge
  else if s.tb.state = .seeking then s.seekEdge s.tb.ln s.tb.px
  else s.trackingEdge s.tb.ln s.tb.px

/-- An edge taken while the counters hold a position: the filtered level is LOW from here (R20). -/
def State.edgeAt (s : State) (ln px : Nat) : State :=
  let there := s.moveTo ln px
  ({ there with mark := { there.mark with level := .low } } : State).edgeHere

/-- An edge taken at the pixel clock of a natural frame start, before the wrap (R6, R21): in SEEKING the order makes the
frame start and the wrap has no further effect, and the event, which falls at that frame start, carries the AFN of the frame
that begins there (R180); in TRACKING the edge is on-time own of the frame that begins there. -/
def State.edgeBeforeWrap (s : State) : State :=
  let low : State := { s with mark := { s.mark with level := .low } }
  if s.tb.state = .seeking then
    let leaving : State :=
      { low with mark := low.mark.followSeek 1 1 0, tb := { low.tb with stateBefore := low.tb.pixelState low.member.state } }
    let begun := (leaving.reload true).postEvent (.trackingEdge 0)
    { begun with tb := { begun.tb with wrapMet := true } }
  else { low with mark := { low.mark.capture 1 1 .onTimeOwn with edgeBeforeWrap := true } }

end Sys2Proof.Machine
end

