-- ==== Sys2Proof/Machine/FrameEvents.lean ====
section
/-! DEFINITION. The commands of the Timebase and the Mark Aligner (01_frame_timebase.md, 02_mark_alignment.md): frame and
line starts, the frame starts at which a threshold is met, MARK edges and catch-zone entry. -/

namespace Sys2Proof.Machine

open Sys2Proof

/-! ## Natural frame starts -/

/-- FRAME_START (R4): the counters wrap. -/
def execFrameStart (s : State) : Host.Outcome State Fault Refusal := .next (s.whenRunning s.naturalFrameStart)

/-- A natural frame start at which a threshold is met, and no happening where the threshold is not met
(DESIGN CHOICE, log 16). -/
def State.frameStartWhen (s : State) (met : Bool) : State :=
  if met = true ∧ s.tb.wrapMet = false then s.naturalFrameStart else s

/-- The miss run becomes 4 at the natural frame start that would come now (R34). -/
def State.markLostDue (s : State) : Bool := s.mark.missReached .natural s.tb.state

/-- MARK_LOST (R34). -/
def execMarkLost (s : State) : Host.Outcome State Fault Refusal :=
  .next (s.whenRunning (s.frameStartWhen s.markLostDue))

/-- The silence count reaches the seek silence at the natural frame start that would come now (R26). -/
def State.seekSilenceDue (s : State) : Bool := s.mark.silenceReached .natural s.tb.state

/-- SEEK_SILENCE (R26). -/
def execSeekSilence (s : State) : Host.Outcome State Fault Refusal :=
  .next (s.whenRunning (s.frameStartWhen s.seekSilenceDue))

/-- The rest count of a RESTING station runs out at the frame start that would come now (R101). -/
def State.restEndDue (s : State) : Bool := decide (s.member.state = .resting ∧ s.member.rest ≤ 1)

/-- REST_END (R101, R112). -/
def execRestEnd (s : State) : Host.Outcome State Fault Refusal :=
  .next (s.whenRunning (s.frameStartWhen s.restEndDue))

/-- The input-silence count exceeds the timeout of a MEMBER at the frame start that would come now (R102). -/
def State.inputTimeoutDue (s : State) : Bool :=
  s.inputSilent (satSucc Config.missRunMax s.member.inputSilence)

/-- INPUT_TIMEOUT (R102). -/
def execInputTimeout (s : State) : Host.Outcome State Fault Refusal :=
  .next (s.whenRunning (s.frameStartWhen s.inputTimeoutDue))

/-! ## Line starts -/

/-- The line start of lines 2 to FL: pixel 1 of the line, and a refresh claim on its way (R3, R18, R149). That of line 1 is
the frame start (R4). -/
def State.lineStart (s : State) (line : Nat) : State :=
  if 2 ≤ line ∧ line ≤ s.settings.fl then
    { s.moveTo line 1 with transit := s.transit.sendRefresh }
  else s

/-- LINE_START (R18). -/
def execLineStart (line : Nat) (s : State) : Host.Outcome State Fault Refusal :=
  .next (s.whenRunning (s.lineStart line))

/-! ## MARK -/

/-- A falling edge, at its time (R20, R21, R25, R28). -/
def State.takeEdge (s : State) : EdgeTime → State
  | .pixel ln px => s.edgeAt ln px
  | .wrap => s.edgeBeforeWrap

/-- MARK_EDGE (R28). -/
def execMarkEdge (time : EdgeTime) (s : State) : Host.Outcome State Fault Refusal :=
  .next (s.whenRunning (s.takeEdge time))

/-- MARK_RISING_EDGE (R20): the filtered level, with no other action, whatever the filter holds (DESIGN CHOICE, log 23). -/
def execMarkRisingEdge (s : State) : Host.Outcome State Fault Refusal :=
  .next (s.whenRunning { s with mark := { s.mark with level := .high } })

/-- Catch-zone entry, at pixel (CZ, 1) (R17, R27). -/
def State.catchZoneEntry (s : State) : State :=
  let there := s.moveTo s.settings.cz 1
  { there with mark := { there.mark with catchArmed := true } }

/-- CATCH_ZONE_ENTRY (R27). -/
def execCatchZoneEntry (s : State) : Host.Outcome State Fault Refusal := .next (s.whenRunning s.catchZoneEntry)

end Sys2Proof.Machine
end

