-- ==== Sys2Proof/Machine/LinkEvents.lean ====
section
/-! DEFINITION. The commands of the link zone and the swap line (03_the_array_link.md to 06_station_membership.md): talk
slots, the roll call, the verdict and SWAP_LINE. -/

namespace Sys2Proof.Machine

open Sys2Proof

/-! ## SLOT_BEGIN (R43, R45, R48) -/

/-- The fields of the announcement, from the state at slot begin (R45, Table 3-2). -/
def State.snapshotNow (s : State) : Snapshot where
  sender := s.loader.index
  heard :=
    { afn := s.tb.afn
      state := s.member.state.announced
      shown := s.table.shownContent
      ready := s.table.readyList
      heardMap := s.roster.heardMap }
  readyFull := decide (s.table.readyCount = Config.readyCap)
  inputAlive := s.link.inputAlive
  withdrawPending := s.member.withdrawal.isSome

/-- The receiver is set afresh at a slot begin of a TRACKING frame (R48). -/
def State.openReceiver (s : State) : State :=
  if s.tb.state = .tracking then { s with link := s.link.resetReceiver } else s

/-- At the begin of the own slot the station starts to send, when permitted, or stays silent (R43). -/
def State.openTransmitter (s : State) (slot : Nat) : State :=
  if slot = s.own then
    if s.mayDrive then { s with link := s.link.startSending s.snapshotNow.bytes }
    else { s with link := s.link.staySilent }
  else s

/-- Slot begin, at pixel 1 of the slot's first line (R15). Slots N to 15 do not exist. -/
def State.slotBegin (s : State) (slot : Nat) : State :=
  if slot < s.settings.n then
    let there := s.moveTo (s.settings.slotFirstLine slot) 1
    (({ there with tb := { there.tb with openSlot := some slot } } : State).openReceiver).openTransmitter slot
  else s

/-- SLOT_BEGIN (R43). -/
def execSlotBegin (slot : Nat) (s : State) : Host.Outcome State Fault Refusal :=
  .next (s.whenRunning (s.slotBegin slot))

/-! ## TALK_CELL_SETTLED (R49) and ANNOUNCE_SENT (R42) -/

/-- The counters stand at the end of a slot position of talk slot `slot` (R15). -/
def State.moveInSlot (s : State) (slot position : Nat) : State :=
  s.moveToEnd (s.settings.slotLine slot position) (s.settings.slotPixel position)

/-- The transmitter stands at the cell, in the own slot (R42). -/
def State.placeTransmitter (s : State) (slot cell : Nat) : State :=
  if slot = s.own then { s with link := s.link.placeTransmitter cell } else s

/-- A cell of the open talk slot is settled, at its cell pixel m + 1, in a TRACKING frame (R38, R48, R49). -/
def State.talkCell (s : State) (cell : Nat) (samples : Samples) : State :=
  match s.tb.openSlot with
  | some slot =>
    if s.tb.state = .tracking ∧ cell < s.settings.slotCapacity then
      let there := (s.moveInSlot slot (s.settings.cellSettled cell)).placeTransmitter slot cell
      { there with link := there.link.receiveCell samples.level }
    else s
  | none => s

/-- TALK_CELL_SETTLED (R49). -/
def execTalkCellSettled (cell : Nat) (samples : Samples) (s : State) : Host.Outcome State Fault Refusal :=
  .next (s.whenRunning (s.talkCell cell samples))

/-- The last slot position of the last stop cell of the own message (R42). -/
def State.sentPosition (s : State) : Nat :=
  (lastStopCell (s.link.snapshot.getD []) + 1) * s.settings.cl

/-- The last stop cell of the own message ends: SENT (R42). -/
def State.announceSent (s : State) : State :=
  if s.link.tx = .sending then
    let there := s.moveInSlot s.own s.sentPosition
    { there with link := { there.link with tx := .sent } }
  else s

/-- ANNOUNCE_SENT (R42). -/
def execAnnounceSent (s : State) : Host.Outcome State Fault Refusal := .next (s.whenRunning s.announceSent)

/-! ## SLOT_END (R52) and RECORD_EXPIRY (R62) -/

/-- The uncut end of talk slot `slot`, at pixel LL of its last line (R15). Only a slot that has begun ends (R7;
DESIGN CHOICE, log 17). -/
def State.slotEnd (s : State) (slot : Nat) : State :=
  if s.tb.openSlot = some slot then (s.moveToEnd (s.settings.slotLastLine slot) s.settings.ll).endSlot slot else s

/-- SLOT_END (R52). -/
def execSlotEnd (slot : Nat) (s : State) : Host.Outcome State Fault Refusal := .next (s.whenRunning (s.slotEnd slot))

/-- The miss run of entry `slot` would reach the record expiry at its slot end now (R62). -/
def State.expiryDue (s : State) (slot : Nat) : Bool :=
  decide (s.tb.state = .tracking ∧ s.slotOutcome slot ≠ .heard ∧
    (s.roster.entry slot).missRun + 1 = Config.recordExpiry)

/-- RECORD_EXPIRY (R62): the slot end at which the entry's miss run reaches 8, and no happening otherwise
(DESIGN CHOICE, log 16). -/
def execRecordExpiry (slot : Nat) (s : State) : Host.Outcome State Fault Refusal :=
  .next (s.whenRunning (if s.expiryDue slot then s.slotEnd slot else s))

/-! ## The vote line (R55, R65) -/

/-- The first pixel of the own roll-call cell: the claim is driven when it is permitted (R16, R37, R55), and the station has then
claimed again after a withdrawal (R75; DEDUCED, log 30). -/
def State.rollCallCell (s : State) : State :=
  let there := s.moveTo s.settings.vl (s.own * s.settings.cl + 1)
  if there.tb.state = .tracking ∧ there.member.state = .member ∧ there.member.withdrawal = none then
    { there with link := { there.link with claimDriven := true, claimOwed := false } }
  else there

/-- ROLL_CALL_CELL (R55). -/
def execRollCallCell (s : State) : Host.Outcome State Fault Refusal := .next (s.whenRunning s.rollCallCell)

/-- The Roster Table at a roll-call close that carries levels: claimed, R, and then the results (R56, R65, R67). -/
def State.rosterRollCall (s : State) (levels : List Level) : State :=
  let claimed := s.roster.rollCall s.settings.n levels
  { s with
    link := { s.link with rollCall := levels.map some }
    roster := { claimed with results := some (claimed.formResults s.own s.link.claimOwed s.table.shownContent) } }

/-- The Consent Unit at a roll-call close that carries results (R78 to R84). -/
def State.consentRollCall (s : State) (results : Results) : State :=
  { s with
    consent := s.consent.decideVote s.member.state s.member.withdrawal s.own s.roster results.heardAll s.table }

/-- Roll-call close in a TRACKING frame: the Roster Table, then the Consent Unit, then the Membership Controller (R65, R87,
"the result is the same in either order"). -/
def State.rollCallWith (s : State) (levels : List Level) : State :=
  let taken := s.rosterRollCall levels
  match taken.roster.results with
  | some results => (taken.consentRollCall results).membershipRollCall results
  | none => taken

/-- Roll-call close, at pixel 16 × CL of line VL (R16). In a SEEKING frame it carries no levels (R65); in any state but
MEMBER the unheard run becomes 0 (R105). -/
def State.rollCallClose (s : State) (cells : List Samples) : State :=
  let there := s.moveToEnd s.settings.vl (Config.stations * s.settings.cl)
  if there.tb.state = .tracking then there.rollCallWith (rollCallLevels cells)
  else if there.member.state = .member then there
  else { there with member := { there.member with unheardRun := 0 } }

/-- ROLL_CALL_CLOSE (R65). -/
def execRollCallClose (cells : List Samples) (s : State) : Host.Outcome State Fault Refusal :=
  .next (s.whenRunning (s.rollCallClose cells))

/-! ## The verdict line (R57, R89) -/

/-- The latch of the verdict order, at pixel (VL + 1, 1) (R57). -/
def State.verdictLatch (s : State) : State :=
  let there := s.moveTo (s.settings.vl + 1) 1
  { there with link := { there.link with latched := there.consent.order, latchTaken := true } }

/-- VERDICT_LATCH (R57). -/
def execVerdictLatch (s : State) : Host.Outcome State Fault Refusal := .next (s.whenRunning s.verdictLatch)

/-- The level reaches the Consent Unit and the Membership Controller, which record it (R58, R89, R90, R106). -/
def State.recordVerdict (s : State) (level : Level) : State :=
  { s with
    link := { s.link with verdictLevel := some level }
    consent := s.consent.takeVerdict level
    member := { s.member with verdictLevel := some level } }

/-- The cause RECEPTION of a MEMBER whose run is 6 (R106). The vote has been cast, so the Consent Unit changes nothing
(R88). -/
def State.receptionCheck (s : State) : State :=
  if s.consent.receptionRun = Config.receptionLimit then
    { s with member := s.member.raise .reception }
  else s

/-- The verdict sample, at the end of pixel m + 1 of line VL + 1 (R16). In a SEEKING frame it carries no level (R58). -/
def State.verdictSample (s : State) (samples : Samples) : State :=
  let there := s.moveToEnd (s.settings.vl + 1) (s.settings.middle + 1)
  if there.tb.state = .tracking then (there.recordVerdict samples.level).receptionCheck else there

/-- VERDICT_SAMPLE (R89). -/
def execVerdictSample (samples : Samples) (s : State) : Host.Outcome State Fault Refusal :=
  .next (s.whenRunning (s.verdictSample samples))

/-! ## SWAP_LINE (R107) -/

/-- The swap line, at pixel (SW, 1) (R17). -/
def State.swapLine (s : State) : State := (s.moveTo s.settings.sw 1).takeSwapLine

/-- SWAP_LINE (R107). -/
def execSwapLine (s : State) : Host.Outcome State Fault Refusal := .next (s.whenRunning s.swapLine)

end Sys2Proof.Machine
end

