-- ==== Sys2Proof/Machine/MemoryEvents.lean ====
section
/-! DEFINITION. What reaches the Memory Port and what it completes (R149 to R153), and RECORD_SENT (R176). -/

namespace Sys2Proof.Machine

open Sys2Proof

/-! ## Claims (R149, R158) -/

/-- A line start reaches the Memory Port, and the arbiter decides when the bus is idle (R149, R150). -/
def State.refreshClaim (s : State) : State :=
  s.whenNext s.transit.nextRefresh
    ({ s with transit := s.transit.takeRefresh, port := s.port.claimRefresh } : State).grant

/-- REFRESH_CLAIM (R149). -/
def execRefreshClaim (s : State) : Host.Outcome State Fault Refusal := .next (s.whenRunning s.refreshClaim)

/-- A finished line reaches the Memory Port (R143, R149, R150). -/
def State.writerClaim (s : State) (slot line : Nat) : State :=
  s.whenNext (s.transit.nextMemory (.writerLine slot line))
    ({ s with transit := s.transit.takeMemory, port := s.port.claimWriter slot line } : State).grant

/-- WRITER_CLAIM (R149). -/
def execWriterClaim (slot line : Nat) (s : State) : Host.Outcome State Fault Refusal :=
  .next (s.whenRunning (s.writerClaim slot line))

/-- An item of the reader's claims reaches the Memory Port (R149, R150, R158). -/
def State.readerClaim (s : State) (item : ReaderItem) : State :=
  s.whenNext (s.transit.nextReader (.item item))
    ({ s with transit := s.transit.takeReader, port := s.port.claimReader s.settings.bursts item } : State).grant

/-- READER_CLAIM (R158). -/
def execReaderClaim (item : ReaderItem) (s : State) : Host.Outcome State Fault Refusal :=
  .next (s.whenRunning (s.readerClaim item))

/-! ## Completion (R151) -/

/-- BURST_COMPLETION (R151): the end of the burst in flight and the next grant. With no burst in flight there is no
completion. A burst outside frame memory is the model's one fault (R147, R172). -/
def execBurstCompletion (s : State) : Host.Outcome State Fault Refusal :=
  if s.running then
    match s.port.inFlight with
    | some burst =>
      if burst.inMemory s.settings then .next (((s.deliver burst).endBurst).grant)
      else .fault .addressOutsideMemory
    | none => .next s
  else .next s

/-! ## Discards and withdrawals (R152, R153) -/

/-- A discard reaches the Memory Port (R152). -/
def State.memoryDiscard (s : State) (slot : Nat) : State :=
  s.whenNext (s.transit.nextMemory (.discard slot))
    { s with transit := s.transit.takeMemory, port := s.port.discard slot }

/-- MEMORY_DISCARD (R152). -/
def execMemoryDiscard (slot : Nat) (s : State) : Host.Outcome State Fault Refusal :=
  .next (s.whenRunning (s.memoryDiscard slot))

/-- A withdrawal of an image line reaches the Memory Port (R153). -/
def State.readerWithdrawal (s : State) (line : Nat) : State :=
  s.whenNext (s.transit.nextReader (.withdraw line))
    { s with transit := s.transit.takeReader, port := s.port.withdraw line }

/-- READER_WITHDRAWAL (R153). -/
def execReaderWithdrawal (line : Nat) (s : State) : Host.Outcome State Fault Refusal :=
  .next (s.whenRunning (s.readerWithdrawal line))

/-! ## The report port -/

/-- RECORD_SENT (R176), in HALTED too (R181): the record leaves the queue, and the next begins. -/
def execRecordSent (s : State) : Host.Outcome State Fault Refusal :=
  .next { s with report := s.report.recordSent }

end Sys2Proof.Machine
end

