-- ==== Sys2Proof/Machine/PanelEvents.lean ====
section
/-! DEFINITION. The commands of the Output Pipe (10_panel_output.md): image line starts and ends, underrun and reader
completions. -/

namespace Sys2Proof.Machine

open Sys2Proof

/-- Image line `line` start, at the pixel of column 0, which is due there (R14, R162). -/
def State.imageLineStart (s : State) (line : Nat) : State :=
  if line < s.settings.wh then
    let there := s.moveTo (s.settings.imageLn line) (s.settings.columnPx 0)
    ({ there with tb := { there.tb with openLine := some line } } : State).dueColumn line 0
  else s

/-- IMAGE_LINE_START (R14). -/
def execImageLineStart (line : Nat) (s : State) : Host.Outcome State Fault Refusal :=
  .next (s.whenRunning (s.imageLineStart line))

/-- The uncut end of image line `line`, at its last window pixel (R14, R161). Only a line that has started ends (R7,
DESIGN CHOICE, log 17). -/
def State.imageLineEnd (s : State) (line : Nat) : State :=
  if s.tb.openLine = some line then
    let there := s.moveToEnd (s.settings.imageLn line) s.settings.lastColumnPx
    ({ there with tb := { there.tb with openLine := none } } : State).endImageLine line
  else s

/-- IMAGE_LINE_END (R161). -/
def execImageLineEnd (line : Nat) (s : State) : Host.Outcome State Fault Refusal :=
  .next (s.whenRunning (s.imageLineEnd line))

/-- Window column `column` of the image line being shown is due at its pixel (R162). -/
def State.columnDue (s : State) (line column : Nat) : State :=
  if s.tb.openLine = some line ∧ column < s.settings.ww then
    (s.moveTo (s.settings.imageLn line) (s.settings.columnPx column)).dueColumn line column
  else s

/-- UNDERRUN (R162). -/
def execUnderrun (line column : Nat) (s : State) : Host.Outcome State Fault Refusal :=
  .next (s.whenRunning (s.columnDue line column))

/-- Read data reaches the Output Pipe: kept or discarded (R159), and urgent settled (R160). -/
def State.readerCompletion (s : State) (d : ReadData) : State :=
  s.whenNext (s.transit.nextRead d)
    ({ s with transit := s.transit.takeRead, out := s.out.takeRead d } : State).settleUrgent

/-- READER_COMPLETION (R159). -/
def execReaderCompletion (d : ReadData) (s : State) : Host.Outcome State Fault Refusal :=
  .next (s.whenRunning (s.readerCompletion d))

end Sys2Proof.Machine
end

