-- ==== Sys2Proof/Machine/Requests.lean ====
section
/-! DEFINITION. The reports of the Input Port as they arrive in the PCLK domain (R46, R102, R113 to R115, R142):
FRAME_OPEN_ARRIVAL, LEAVE and REJOIN. -/

namespace Sys2Proof.Machine

open Sys2Proof

/-- The next report has arrived (R142). -/
def State.takeReport (s : State) : State := { s with transit := s.transit.takeReport }

/-! ## FRAME_OPEN_ARRIVAL (R46, R102) -/

/-- A FRAME_OPEN arrival: the input-alive latch is set, and the input-silence count becomes 0. -/
def State.frameOpenArrival (s : State) : State :=
  s.whenNext (s.transit.nextReport .arrival)
    { s.takeReport with
      link := { s.link with inputAlive := true }
      member := { s.member with inputSilence := 0 } }

/-- FRAME_OPEN_ARRIVAL (R46). -/
def execFrameOpenArrival (s : State) : Host.Outcome State Fault Refusal := .next (s.whenRunning s.frameOpenArrival)

/-! ## LEAVE (R113, R114) -/

/-- A LEAVE in MEMBER (R113): pending, no effect on a LEAVE, or the park flag. -/
def State.leaveMember (s : State) : State :=
  match s.member.withdrawal with
  | none => s.raise .leave
  | some cause =>
    if cause = .leave then s else { s with member := { s.member with park := true } }

/-- A LEAVE in LISTEN, JOINING or RESTING (R114): PARKED at once. The empty-roll-call run is 0 in LISTEN and RESTING already,
and the rest count is 0 in LISTEN and JOINING already. -/
def Membership.parkFrom (m : Membership) : Membership :=
  match m.state with
  | .joining => { m with state := .parked, emptyRun := 0 }
  | .resting => { m with state := .parked, rest := 0 }
  | _ => { m with state := .parked }

/-- A LEAVE that parks the station posts EVENT PARKED with the former state (R114), and the AFN that the Timebase then holds
(R180), also ahead of the frame start of the same pixel clock (DESIGN CHOICE, log 31). -/
def State.parkNow (s : State) : State :=
  ({ s with member := s.member.parkFrom } : State).postEvent (.parked s.member.state)

/-- A LEAVE, by membership state (R98, R113, R114). -/
def State.actOnLeave (s : State) : State :=
  match s.member.state with
  | .member => s.leaveMember
  | .listen => s.parkNow
  | .joining => s.parkNow
  | .resting => s.parkNow
  | .parked => { s with member := { s.member with rejoin := false } }
  | .config => s
  | .halted => s

/-- A LEAVE arrives, as the next report on its way (R142). -/
def State.leave (s : State) : State := s.whenNext (s.transit.nextReport .leave) s.takeReport.actOnLeave

/-- LEAVE (R113). -/
def execLeave (s : State) : Host.Outcome State Fault Refusal := .next (s.whenRunning s.leave)

/-! ## REJOIN (R115) -/

/-- A REJOIN, by membership state (R98, R115). EVENT REJOIN_IGNORED carries the AFN that the Timebase then holds (R180), also
ahead of the frame start of the same pixel clock (DESIGN CHOICE, log 31). -/
def State.actOnRejoin (s : State) : State :=
  match s.member.state with
  | .parked => { s with member := { s.member with rejoin := true } }
  | .listen => s.postEvent (.rejoinIgnored .listen)
  | .joining => s.postEvent (.rejoinIgnored .joining)
  | .member => s.postEvent (.rejoinIgnored .member)
  | .resting => s.postEvent (.rejoinIgnored .resting)
  | .config => s
  | .halted => s

/-- A REJOIN arrives, as the next report on its way (R142). -/
def State.rejoin (s : State) : State := s.whenNext (s.transit.nextReport .rejoin) s.takeReport.actOnRejoin

/-- REJOIN (R115). -/
def execRejoin (s : State) : Host.Outcome State Fault Refusal := .next (s.whenRunning s.rejoin)

end Sys2Proof.Machine
end

