-- ==== Sys2Proof/Machine/Image.lean ====
section
/-! DEFINITION. The configuration image (Table 13-3) and the ten checks of the Configuration Loader (R171, R172,
Tables 11-3 and 11-4). -/

namespace Sys2Proof.Machine

open Sys2Proof

/-! ## Fields (Table 13-3) -/

/-- A single-byte field. -/
def imageByte (image : List Byte) (k : Nat) : Byte := (image[k]?).getD 0

/-- A single-byte field as a number. -/
def imageNat (image : List Byte) (k : Nat) : Nat := (imageByte image k).toNat

/-- A two-byte field, high byte first, as a number. -/
def imageWord (image : List Byte) (k : Nat) : Nat := (word16 (imageByte image k) (imageByte image (k + 1))).toNat

/-- A colour: R, then G, then B. -/
def imageColour (image : List Byte) (k : Nat) : Colour :=
  imageByte image k ++ imageByte image (k + 1) ++ imageByte image (k + 2)

/-- The memory capacity of a code: 16, 32, 64 or 128 MiB. -/
def capacityOf (code : Nat) : Nat := 16777216 * 2 ^ code

/-- The symbols that an image sets. -/
def settingsOf (image : List Byte) : Settings where
  n := imageNat image 3
  ll := imageWord image 4
  fl := imageWord image 6
  ha0 := imageWord image 8
  ha1 := imageWord image 10
  va0 := imageWord image 12
  va1 := imageWord image 14
  hs0 := imageWord image 16
  hs1 := imageWord image 18
  vs0 := imageWord image 20
  vs1 := imageWord image 22
  wx := imageWord image 24
  wy := imageWord image 26
  ww := imageWord image 28
  wh := imageWord image 30
  sl := imageNat image 32
  cl := imageNat image 33
  tw := imageWord image 34
  vl := imageWord image 36
  sw := imageWord image 38
  cz := imageWord image 40
  border := imageColour image 42
  fill := imageColour image 45
  clampLow := imageByte image 48
  clampHigh := imageByte image 49
  hsHigh := (imageByte image 50).getLsbD 0
  vsHigh := (imageByte image 50).getLsbD 1
  deHigh := (imageByte image 50).getLsbD 2
  flipHigh := (imageByte image 50).getLsbD 3
  memoryBytes := capacityOf (imageNat image 51)
  inputTimeout := imageNat image 52
  reportDivisor := imageWord image 53
  reportMode := if imageNat image 55 = 0 then .everyFrame else .onChange

/-! ## The ten checks (Table 11-3) -/

/-- Check 1: the signature is 0x54 then 0x4C. -/
def checkSignature (image : List Byte) : Bool := decide (imageByte image 0 = 0x54#8 ∧ imageByte image 1 = 0x4C#8)

/-- Check 2: the version is 1. -/
def checkVersion (image : List Byte) : Bool := decide (imageByte image 2 = 1#8)

/-- Check 3: the check field is the CRC-16 over bytes 0 to 61, most significant bit first (R184). -/
def checkCrc (image : List Byte) : Bool :=
  decide (word16 (imageByte image 62) (imageByte image 63) = crc16 msbFirst (image.take 62))

/-- Check 4: bytes 56 to 61 and bits 7 to 4 of byte 50 are 0. -/
def checkFill (image : List Byte) : Bool :=
  (List.range 6).all (fun k => decide (imageByte image (56 + k) = 0#8)) &&
    decide ((imageByte image 50).extractLsb' 4 4 = 0#4)

/-- A number lies in a range. -/
def inRange (low high x : Nat) : Bool := decide (low ≤ x ∧ x ≤ high)

/-- Check 5: every field lies within its own range (Table 11-4). -/
def checkRange (image : List Byte) : Bool :=
  let c := settingsOf image
  inRange 64 4096 c.ll && inRange 32 2048 c.fl &&
    [c.ha0, c.ha1, c.hs0, c.hs1].all (inRange 1 4096) &&
    [c.va0, c.va1, c.vs0, c.vs1, c.tw, c.vl, c.sw, c.cz].all (inRange 1 2048) &&
    inRange 0 4095 c.wx && inRange 0 2047 c.wy && inRange 1 4096 c.ww && inRange 1 2048 c.wh &&
    inRange 2 16 c.n && inRange 1 8 c.sl && inRange 4 64 c.cl &&
    inRange 0 3 (imageNat image 51) && inRange 0 250 c.inputTimeout && inRange 16 65535 c.reportDivisor &&
    inRange 0 1 (imageNat image 55)

/-- Check 6: the constraints of R172. -/
def orderHolds (c : Settings) : Bool :=
  decide (c.ha0 ≤ c.ha1 ∧ c.ha1 ≤ c.ll) &&
    decide (2 ≤ c.va0 ∧ c.va0 ≤ c.va1 ∧ c.va1 < c.tw) &&
    decide (c.hs0 ≤ c.hs1 ∧ c.hs1 ≤ c.ll) &&
    decide (c.vs0 ≤ c.vs1 ∧ c.vs1 ≤ c.fl) &&
    decide (c.wx + c.ww + c.ha0 ≤ c.ha1 + 1) &&
    decide (c.wy + c.wh + c.va0 ≤ c.va1 + 1) &&
    decide (c.tw + c.n * c.sl ≤ c.vl) &&
    decide (c.vl + 2 ≤ c.sw) &&
    decide (c.sw < c.cz ∧ c.cz ≤ c.fl) &&
    decide (c.clampLow ≤ c.clampHigh)

/-- Check 7: the slot capacity is at least 200 cells. -/
def capacityHolds (c : Settings) : Bool := decide (200 ≤ c.slotCapacity)

/-- Check 8: the sixteen roll-call cells fit the vote line. -/
def voteLineHolds (c : Settings) : Bool := decide (16 * c.cl ≤ c.ll)

/-- Check 9: the four frame slots fit the memory. -/
def memoryHolds (c : Settings) : Bool := decide (4 * c.wh * ((3 * c.ww + 63) / 64) * 64 ≤ c.memoryBytes)

/-- Check 10: the station index is less than N. -/
def indexHolds (index : BitVec 4) (c : Settings) : Bool := decide (index.toNat < c.n)

/-- The ten checks in the order of Table 11-3. -/
def imageChecks (index : BitVec 4) (image : List Byte) : List Bool :=
  [checkSignature image, checkVersion image, checkCrc image, checkFill image, checkRange image,
    orderHolds (settingsOf image), capacityHolds (settingsOf image), voteLineHolds (settingsOf image),
    memoryHolds (settingsOf image), indexHolds index (settingsOf image)]

/-- The number of the first check that fails, none when all ten hold (R171). -/
def faultCode (index : BitVec 4) (image : List Byte) : Option Nat :=
  ((imageChecks index image).findIdx? (fun holds => !holds)).map (fun k => k + 1)

end Sys2Proof.Machine
end

