-- ==== Sys2Proof/Machine/StartUp.lean ====
section
/-! DEFINITION. The start-up commands (11_start_up_and_configuration.md): RESET, RESET_RELEASE, IMAGE_READ_DONE. -/

namespace Sys2Proof.Machine

open Sys2Proof

/-! ## RESET (R168) -/

/-- The free bytes that a reset draws: 64 when it cuts a burst short (R148, log 10). -/
def State.resetDraw (s : State) : Nat := if s.cutArea.isSome then s.free + 64 else s.free

/-- Every block in its reset condition (Table 11-1). The RESET pin leaves the station index (R169) and frame memory, but
for the area of a burst it cut short (R148); power-on leaves neither (DESIGN CHOICE, log 7). The waiting commands are not
the part's state. -/
def State.resetBy (s : State) (kind : ResetKind) : State :=
  { State.reset with
    loader := { State.resetLoader with
      index := match kind with
        | .powerOn => 0
        | .pin => s.loader.index }
    ram := match kind with
      | .powerOn => []
      | .pin => s.ramAfterReset
    free := s.resetDraw
    pending := s.pending }

/-- RESET. -/
def execReset (kind : ResetKind) (s : State) : Host.Outcome State Fault Refusal := .next (s.resetBy kind)

/-! ## RESET_RELEASE (R169, R170) -/

/-- An attempt begins: the count rises, the image buffer is emptied and SCS goes low (R170). -/
def Loader.beginAttempt (l : Loader) : Loader :=
  { l with phase := .reading, attempts := l.attempts + 1, image := List.replicate 64 none }

/-- The release of reset: the straps are sampled and attempt 1 begins. Without a pixel clock the attempt does not advance and
SCS stays high until the clock runs (R168; DESIGN CHOICE, log 26). Without a reset there is no release. -/
def State.release (s : State) (straps : ReleasePins) : State :=
  if s.loader.phase = .held then
    { s with loader := ({ s.loader with index := straps.id, clockAbsent := !straps.clockRuns } : Loader).beginAttempt }
  else s

/-- RESET_RELEASE. -/
def execResetRelease (straps : ReleasePins) (s : State) : Host.Outcome State Fault Refusal :=
  .next (s.release straps)

/-! ## IMAGE_READ_DONE (R171, R173, R174) -/

/-- The events of failed attempts, in attempt order, each with AFN 0 (R173, R174). -/
def ReportPort.postFaults (p : ReportPort) : Nat → List Nat → ReportPort
  | _, [] => p
  | attempt, code :: rest => (p.post (.event 0 (.configFault code attempt))).postFaults (attempt + 1) rest

/-- The third attempt has failed: HALTED, and the three events (R173). -/
def State.halt (s : State) : State :=
  { s with
    loader := { s.loader with phase := .halted }
    member := { s.member with state := .halted }
    report := s.report.postFaults 1 s.loader.faults }

/-- A failed attempt (R173). -/
def State.failAttempt (s : State) (code : Nat) : State :=
  let recorded : State := { s with loader := { s.loader with faults := s.loader.faults ++ [code] } }
  if s.loader.attempts < Config.loadAttempts then { recorded with loader := recorded.loader.beginAttempt }
  else recorded.halt

/-- A successful attempt (R174): the settings, LISTEN, the FIRST frame start and the events, at the image's divisor. -/
def State.accept (s : State) (c : Settings) : State :=
  let released : State :=
    { s with
      settings := c
      loader := { s.loader with phase := .accepted }
      report := { s.report with divisor := c.reportDivisor } }
  let started := released.enterListen.frameStart .first .seeking
  { started with
    report := (started.report.postFaults 1 s.loader.faults).post (.event 0 (.started s.loader.index c.n)) }

/-- The 64 bytes have been read and SCS is raised: CHECKING, whose end is this same event (R171). Only an attempt that
reads, from a running pixel clock, can have read its 64 bytes. -/
def State.imageRead (s : State) (bytes : List Byte) : State :=
  if s.loader.phase = .reading ∧ s.loader.clockAbsent = false ∧ bytes.length = 64 then
    let received : State :=
      { s with loader := { s.loader with phase := .checking, image := bytes.map some } }
    match faultCode s.loader.index bytes with
    | some code => received.failAttempt code
    | none => received.accept (settingsOf bytes)
  else s

/-- IMAGE_READ_DONE. -/
def execImageReadDone (bytes : List Byte) (s : State) : Host.Outcome State Fault Refusal := .next (s.imageRead bytes)

end Sys2Proof.Machine
end

