-- ==== Sys2Proof/Machine/Stream.lean ====
section
/-! DEFINITION. The words of the frame input port (08_the_frame_input_port.md): FRAME_OPEN, FRAME_FLAGS, LINE_OPEN,
PIXEL_WORD, FRAME_CLOSE and DAMAGED_CONTROL_WORD. Each is handled whole before the next (8.10). -/

namespace Sys2Proof.Machine

open Sys2Proof

/-! ## Discards, defects, strays -/

/-- The Slot Table discards the FILLING slot and tells the Memory Port (R123). With no slot FILLING nothing happens. -/
def State.discardFilling (s : State) : State :=
  match s.table.fillingSlot with
  | some slot => { s with table := s.table.discard, transit := s.transit.sendMemory (.discard slot) }
  | none => s

/-- A defect (R139): the discard, the buffers emptied, and DRAINING. -/
def State.defect (s : State) : State :=
  { s.discardFilling with input := s.input.drain }

/-- A word taken in IDLE that belongs to no frame (R136). -/
def State.strayWord (s : State) : State := { s with input := s.input.countStray.shut }

/-- A word ignored in DRAINING (R140): it shuts the flags window (R141). -/
def State.ignoreWord (s : State) : State := { s with input := s.input.shut }

/-! ## FRAME_OPEN (R135) -/

/-- Step 1 of R135: a frame being received is abandoned. -/
def State.abandonFrame (s : State) : State :=
  if s.input.state = .filling then { s.discardFilling with input := s.input.abandon } else s

/-- Steps 3 to 5 of R135: admission, the new state and the flags window. -/
def State.requestAdmission (s : State) (content : Content) : State :=
  { s with
    table := s.table.request content
    input := match s.table.answer content with
      | .admitted slot => s.input.startFilling slot
      | .noRoom => s.input.startDraining
      | .outOfOrder => s.input.startDraining }

/-- A FRAME_OPEN, in any input state (R135). -/
def State.frameOpen (s : State) (content : Content) : State :=
  let abandoned := s.abandonFrame
  ({ abandoned with transit := abandoned.transit.sendReport .arrival } : State).requestAdmission content

/-- FRAME_OPEN (R135). -/
def execFrameOpen (content : Content) (s : State) : Host.Outcome State Fault Refusal :=
  .next (s.whenRunning (s.frameOpen content))

/-! ## FRAME_FLAGS (R141) -/

/-- What a payload passes: bit 0 is LEAVE and bit 1 REJOIN (13_data_formats.md); both set, or neither, pass nothing. -/
def flagsReport (payload : BitVec 16) : Option InputReport :=
  match payload.getLsbD 0, payload.getLsbD 1 with
  | true, false => some .leave
  | false, true => some .rejoin
  | true, true => none
  | false, false => none

/-- A FRAME_FLAGS with the window open is honoured, and the window shuts (R141, R142). -/
def State.honourFlags (s : State) (payload : BitVec 16) : State :=
  { s with
    input := s.input.shut
    transit := match flagsReport payload with
      | some report => s.transit.sendReport report
      | none => s.transit }

/-- A FRAME_FLAGS by input state and flags window (R136, R139, R140, R141). -/
def State.frameFlags (s : State) (payload : BitVec 16) : State :=
  match s.input.state with
  | .idle => s.strayWord
  | .filling => if s.input.window then s.honourFlags payload else s.defect
  | .draining => if s.input.window then s.honourFlags payload else s.ignoreWord

/-- FRAME_FLAGS (R141). -/
def execFrameFlags (payload : BitVec 16) (s : State) : Host.Outcome State Fault Refusal :=
  .next (s.whenRunning (s.frameFlags payload))

/-! ## LINE_OPEN (R137, R144) -/

/-- A LINE_OPEN in FILLING (Table 8-2): it opens the line, or is a short line, a wrong line index or an overrun. A line
opens only while lines of the frame are still to come (R137). -/
def State.openLine (s : State) (index : BitVec 16) : State :=
  if s.input.pixelCount = none ∧ index.toNat = s.input.expectedLine ∧ index.toNat < s.settings.wh then
    match s.input.emptyBufferNumber with
    | some b => { s with input := s.input.openLine b index.toNat }
    | none => s.defect
  else s.defect

/-- A LINE_OPEN by input state (R136, R137, R140). -/
def State.lineOpen (s : State) (index : BitVec 16) : State :=
  match s.input.state with
  | .idle => s.strayWord
  | .filling => s.openLine index
  | .draining => s.ignoreWord

/-- LINE_OPEN (R137). -/
def execLineOpen (index : BitVec 16) (s : State) : Host.Outcome State Fault Refusal :=
  .next (s.whenRunning (s.lineOpen index))

/-! ## PIXEL_WORD (R137) -/

/-- The WWth pixel word completes the line, which goes to the Memory Port as writer claims (R137, R143). -/
def State.completeLine (s : State) : State :=
  { s with
    input := s.input.completeLine s.settings.bursts
    transit := s.transit.sendMemory (.writerLine s.input.slot s.input.expectedLine) }

/-- A pixel word in FILLING (Table 8-2): stored in the open line, or a defect. -/
def State.storePixel (s : State) (colour : Colour) : State :=
  match s.input.pixelCount with
  | some count =>
    let stored : State := { s with input := s.input.storePixel count colour }
    if count + 1 = s.settings.ww then stored.completeLine else stored
  | none => s.defect

/-- A pixel word by input state (R136, R137, R140). -/
def State.pixelWord (s : State) (colour : Colour) : State :=
  match s.input.state with
  | .idle => s.strayWord
  | .filling => s.storePixel colour
  | .draining => s.ignoreWord

/-- PIXEL_WORD (R137). -/
def execPixelWord (colour : Colour) (s : State) : Host.Outcome State Fault Refusal :=
  .next (s.whenRunning (s.pixelWord colour))

/-! ## FRAME_CLOSE (R138) -/

/-- A FRAME_CLOSE in FILLING (Table 8-2): accepted, or a defect. -/
def State.closeFrame (s : State) (count : BitVec 16) : State :=
  if s.input.pixelCount = none ∧ s.input.expectedLine = s.settings.wh ∧ count.toNat = s.settings.wh then
    { s with input := s.input.finish, table := s.table.closeAccepted s.settings.wh }
  else s.defect

/-- A FRAME_CLOSE by input state (R136, R138, R140). -/
def State.frameClose (s : State) (count : BitVec 16) : State :=
  match s.input.state with
  | .idle => s.strayWord
  | .filling => s.closeFrame count
  | .draining => { s with input := s.input.finish }

/-- FRAME_CLOSE (R138). -/
def execFrameClose (count : BitVec 16) (s : State) : Host.Outcome State Fault Refusal :=
  .next (s.whenRunning (s.frameClose count))

/-! ## DAMAGED_CONTROL_WORD (R139) -/

/-- A damaged control word by input state (R136, R139, R140). -/
def State.damagedWord (s : State) : State :=
  match s.input.state with
  | .idle => s.strayWord
  | .filling => s.defect
  | .draining => s.ignoreWord

/-- A control word as it stands on IDAT, through the checker (R133, R185, Table 13-2): what it spells is done, and a word that
spells nothing is damaged. -/
def State.controlWord (s : State) (word : BitVec 24) : State :=
  match decodeControlWord word with
  | .frameOpen content => s.frameOpen content
  | .frameFlags payload => s.frameFlags payload
  | .lineOpen index => s.lineOpen index
  | .frameClose count => s.frameClose count
  | _ => s.damagedWord

/-- DAMAGED_CONTROL_WORD (R139): the word is put through the checker (log 20). -/
def execDamagedControlWord (word : BitVec 24) (s : State) : Host.Outcome State Fault Refusal :=
  .next (s.whenRunning (s.controlWord word))

end Sys2Proof.Machine
end

