-- ==== Sys2Proof/Machine/Dispatch.lean ====
section
/-! DEFINITION. One arm for each command. -/

namespace Sys2Proof.Machine

open Sys2Proof

def exec (i : Instr) (s : State) : Host.Outcome State Fault Refusal :=
  match i with
  | .reset kind => Sys2Proof.Machine.execReset kind s
  | .resetRelease straps => Sys2Proof.Machine.execResetRelease straps s
  | .imageReadDone bytes => Sys2Proof.Machine.execImageReadDone bytes s
  | .frameStart => Sys2Proof.Machine.execFrameStart s
  | .markLost => Sys2Proof.Machine.execMarkLost s
  | .seekSilence => Sys2Proof.Machine.execSeekSilence s
  | .restEnd => Sys2Proof.Machine.execRestEnd s
  | .inputTimeout => Sys2Proof.Machine.execInputTimeout s
  | .lineStart line => Sys2Proof.Machine.execLineStart line s
  | .markEdge time => Sys2Proof.Machine.execMarkEdge time s
  | .slotBegin slot => Sys2Proof.Machine.execSlotBegin slot s
  | .announceSent => Sys2Proof.Machine.execAnnounceSent s
  | .slotEnd slot => Sys2Proof.Machine.execSlotEnd slot s
  | .recordExpiry slot => Sys2Proof.Machine.execRecordExpiry slot s
  | .rollCallCell => Sys2Proof.Machine.execRollCallCell s
  | .rollCallClose cells => Sys2Proof.Machine.execRollCallClose cells s
  | .verdictLatch => Sys2Proof.Machine.execVerdictLatch s
  | .verdictSample samples => Sys2Proof.Machine.execVerdictSample samples s
  | .swapLine => Sys2Proof.Machine.execSwapLine s
  | .catchZoneEntry => Sys2Proof.Machine.execCatchZoneEntry s
  | .imageLineStart line => Sys2Proof.Machine.execImageLineStart line s
  | .imageLineEnd line => Sys2Proof.Machine.execImageLineEnd line s
  | .underrun line column => Sys2Proof.Machine.execUnderrun line column s
  | .readerCompletion d => Sys2Proof.Machine.execReaderCompletion d s
  | .frameOpen content => Sys2Proof.Machine.execFrameOpen content s
  | .frameFlags payload => Sys2Proof.Machine.execFrameFlags payload s
  | .lineOpen index => Sys2Proof.Machine.execLineOpen index s
  | .pixelWord colour => Sys2Proof.Machine.execPixelWord colour s
  | .frameClose count => Sys2Proof.Machine.execFrameClose count s
  | .damagedControlWord word => Sys2Proof.Machine.execDamagedControlWord word s
  | .frameOpenArrival => Sys2Proof.Machine.execFrameOpenArrival s
  | .leave => Sys2Proof.Machine.execLeave s
  | .rejoin => Sys2Proof.Machine.execRejoin s
  | .refreshClaim => Sys2Proof.Machine.execRefreshClaim s
  | .writerClaim slot line => Sys2Proof.Machine.execWriterClaim slot line s
  | .readerClaim item => Sys2Proof.Machine.execReaderClaim item s
  | .burstCompletion => Sys2Proof.Machine.execBurstCompletion s
  | .memoryDiscard slot => Sys2Proof.Machine.execMemoryDiscard slot s
  | .readerWithdrawal line => Sys2Proof.Machine.execReaderWithdrawal line s
  | .recordSent => Sys2Proof.Machine.execRecordSent s
  | .markRisingEdge => Sys2Proof.Machine.execMarkRisingEdge s
  | .talkCellSettled cell samples => Sys2Proof.Machine.execTalkCellSettled cell samples s

end Sys2Proof.Machine
end

