-- ==== Sys2Proof/Machine/Tick.lean ====
section
/-! DEFINITION. One phase of a pixel clock, which is what a step does when no command waits (DESIGN CHOICE, log 2):
the samples the part takes by itself (R20, R38), the happenings of the pixel's end and of the next pixel's beginning
(Table 1-2, R19), which join the queue as commands, and the transmitter of RPT (R176). -/

namespace Sys2Proof.Machine

open Sys2Proof

/-! ## First phase: the pixel's samples -/

/-- The level of a line at this sampling: low when the station or some peer holds it low (R37; log 3). -/
def State.lineLevel (s : State) (line : LinkLine) (own : Bool) : Level :=
  drivenLevel (own || Config.peersLow line s.free)

/-- The cell pixel and the line of the cell that the part reads at this pixel (R38). -/
def State.cellRead (s : State) : Option (LinkLine × Nat) :=
  if s.tb.state = .tracking then
    match s.tb.openSlot, s.talkCellAt with
    | some _, some (_, _, pixel) => some (.talk, pixel)
    | _, _ =>
      match s.rollCallCellAt, s.verdictCellAt with
      | some (_, pixel), _ => some (.vote, pixel)
      | none, some pixel => some (.vote, pixel)
      | none, none => none
  else none

/-- The samples of the cell being read, with this pixel's when it is one of the three (R38). -/
def State.sampledCell (s : State) : List Level :=
  match s.cellRead with
  | some (line, pixel) =>
    let own := if line = .talk then s.talkDrive else s.voteDrive
    let middle := s.settings.middle
    if pixel + 1 = middle then [s.lineLevel line own]
    else if pixel = middle ∨ pixel = middle + 1 then s.link.cellSamples ++ [s.lineLevel line own]
    else s.link.cellSamples
  | none => s.link.cellSamples

/-- What the filter's step leads to: the falling edge of R20 at this position, or the rising edge. -/
def FilterStep.commands (step : FilterStep) (ln px : Nat) : List Instr :=
  match step with
  | .quiet => []
  | .falling => [.markEdge (.pixel ln px)]
  | .rising => [.markRisingEdge]

/-- The samples of the pixel are taken, and an edge of MARK is raised. -/
def State.takeSamples (s : State) : State :=
  let filtered := s.mark.sample (s.lineLevel .mark s.markDrive)
  { s with
    mark := filtered.1
    link := { s.link with cellSamples := s.sampledCell }
    tb := { s.tb with phase := .sampled }
    free := s.free + 1
    pending := s.pending ++ filtered.2.commands s.tb.ln s.tb.px }

/-! ## Second phase: the pixel's end -/

/-- The three samples of a cell, once taken. -/
def samplesOf (levels : List Level) : Option Samples :=
  match levels with
  | [a, b, c] => some ⟨a, b, c⟩
  | _ => none

/-- The cell whose level is settled at the end of this pixel, with its samples: cell pixel m + 1 (R38). -/
def State.settledSamples (s : State) (pixel : Nat) : Option Samples :=
  if s.tb.state = .tracking ∧ pixel = s.settings.middle + 1 then samplesOf s.link.cellSamples else none

/-- TALK_CELL_SETTLED at the end of this pixel, when it comes. -/
def State.talkCellEnd (s : State) : List Instr :=
  match s.tb.openSlot, s.talkCellAt with
  | some _, some (_, cell, pixel) =>
    match s.settledSamples pixel with
    | some samples => [.talkCellSettled cell samples]
    | none => []
  | _, _ => []

/-- ANNOUNCE_SENT at the end of this pixel, when it comes: the end of the last stop cell (R42). -/
def State.announceEnd (s : State) : List Instr :=
  if s.link.tx = .sending ∧ s.tb.openSlot = some s.own ∧
      s.settings.slotPosition s.own s.tb.ln s.tb.px = s.sentPosition then [.announceSent] else []

/-- SLOT_END at the end of this pixel, when it comes (R15). -/
def State.slotEndHere (s : State) : List Instr :=
  match s.tb.openSlot with
  | some slot =>
    if s.tb.ln = s.settings.slotLastLine slot ∧ s.tb.px = s.settings.ll then [.slotEnd slot] else []
  | none => []

/-- IMAGE_LINE_END at the end of this pixel, when it comes (R14). -/
def State.imageLineEndHere (s : State) : List Instr :=
  match s.tb.openLine with
  | some line =>
    if s.tb.ln = s.settings.imageLn line ∧ s.tb.px = s.settings.lastColumnPx then [.imageLineEnd line] else []
  | none => []

/-- A recorded level as samples; a cell that was not read counts as released (DESIGN CHOICE, log 18). -/
def recordedSamples (level : Option Level) : Samples := Samples.steady (level.getD .high)

/-- ROLL_CALL_CLOSE at the end of this pixel, when it comes (R16), with the levels that have been recorded (R56). -/
def State.rollCallEnd (s : State) : List Instr :=
  if s.tb.ln = s.settings.vl ∧ s.tb.px = Config.stations * s.settings.cl then
    [.rollCallClose (s.link.rollCall.map recordedSamples)]
  else []

/-- VERDICT_SAMPLE at the end of this pixel, when it comes (R16). -/
def State.verdictEnd (s : State) : List Instr :=
  if s.tb.ln = s.settings.vl + 1 ∧ s.tb.px = s.settings.middle + 1 then
    [.verdictSample ((samplesOf s.link.cellSamples).getD (Samples.steady .high))]
  else []

/-- The happenings at the end of this pixel (Table 1-2). -/
def State.endHappenings (s : State) : List Instr :=
  s.talkCellEnd ++ s.announceEnd ++ s.slotEndHere ++ s.imageLineEndHere ++ s.rollCallEnd ++ s.verdictEnd

/-- The roll-call levels, with that of a cell settled at the end of this pixel (R56). -/
def State.recordedRollCall (s : State) : List (Option Level) :=
  match s.rollCallCellAt with
  | some (cell, pixel) =>
    match s.settledSamples pixel with
    | some samples => s.link.rollCall.set cell (some samples.level)
    | none => s.link.rollCall
  | none => s.link.rollCall

/-- The pixel ends: a settled roll-call level is recorded, and the happenings of the end are raised. -/
def State.endPixel (s : State) : State :=
  let recorded : State :=
    { s with
      link := { s.link with rollCall := s.recordedRollCall }
      tb := s.tb.endAt s.member.state }
  { recorded with pending := recorded.pending ++ recorded.endHappenings }

/-! ## Third phase: the next pixel -/

/-- The happenings at the beginning of the line's first pixel (R15, R16, R17, R18). -/
def State.lineHappenings (s : State) : List Instr :=
  (if 2 ≤ s.tb.ln then [.lineStart s.tb.ln] else []) ++
    (match s.settings.slotOfLine s.tb.ln with
      | some slot => if s.tb.ln = s.settings.slotFirstLine slot then [.slotBegin slot] else []
      | none => []) ++
    (if s.tb.ln = s.settings.vl + 1 then [.verdictLatch] else []) ++
    (if s.tb.ln = s.settings.sw then [.swapLine] else []) ++
    (if s.tb.ln = s.settings.cz then [.catchZoneEntry] else [])

/-- The happenings at the beginning of a window pixel: the line's start, or a column that underruns (R14, R162). -/
def State.windowHappenings (s : State) : List Instr :=
  match s.windowAt with
  | some (line, column) =>
    if column = 0 then [.imageLineStart line]
    else if s.out.underrunsAt line column then [.underrun line column]
    else []
  | none => []

/-- The happenings at the beginning of this pixel (Table 1-2, R19). -/
def State.beginHappenings (s : State) : List Instr :=
  (if s.tb.px = 1 then s.lineHappenings else []) ++
    (if s.tb.ln = s.settings.vl ∧ s.tb.px = s.own * s.settings.cl + 1 then [.rollCallCell] else []) ++
    s.windowHappenings

/-- The transmitter stands at the cell of this pixel, in the own slot (R42). -/
def State.followCell (s : State) : State :=
  match s.tb.openSlot, s.talkCellAt with
  | some slot, some (_, cell, _) => s.placeTransmitter slot cell
  | _, _ => s

/-- The counters move on within the frame (R3), and the happenings of the new pixel are raised. -/
def State.beginPixel (s : State) (ln px : Nat) : State :=
  let moved : State := { s with tb := s.tb.beginAt s.member.state ln px }
  let placed := moved.followCell
  { placed with pending := placed.pending ++ placed.beginHappenings }

/-- One pixel clock of the transmitter; the end of a record's last stop bit is raised (R176). -/
def State.clockReport (s : State) : State :=
  { s with
    report := s.report.clock.1
    pending := s.pending ++ (if s.report.clock.2 then [.recordSent] else []) }

/-- The next pixel clock (R3): the next pixel, the next line, or the wrap. -/
def State.nextPixel (s : State) : State :=
  let clocked := s.clockReport
  if s.tb.px < s.settings.ll then clocked.beginPixel s.tb.ln (s.tb.px + 1)
  else if s.tb.ln < s.settings.fl then clocked.beginPixel (s.tb.ln + 1) 1
  else { clocked with pending := clocked.pending ++ [.frameStart] }

/-! ## The step of an empty queue -/

/-- A pixel clock while the Loader reads: an attempt begun without one goes on "once PCLK runs" (R168). -/
def State.clockLoader (s : State) : State := { s with loader := { s.loader with clockAbsent := false } }

/-- One phase of a pixel clock. In HALTED only the Report Port runs (R181); before that the part waits for the Loader. -/
def State.tick (s : State) : State :=
  match s.loader.phase with
  | .accepted =>
    match s.tb.phase with
    | .begun => s.takeSamples
    | .sampled => s.endPixel
    | .ended => s.nextPixel
  | .halted => s.clockReport
  | .held => s
  | .reading => s.clockLoader
  | .checking => s

end Sys2Proof.Machine
end

