-- ==== Sys2Proof/Machine/Step.lean ====
section
/-! DEFINITION. One step of the block: the command at the front of the queue, or one phase of a pixel clock when none
waits (DESIGN CHOICE, log 2). -/

namespace Sys2Proof.Machine

open Sys2Proof

/-- One step. -/
def step (s : State) : Host.Outcome State Fault Refusal :=
  match s.pending with
  | [] => .next s.tick
  | c :: rest => exec c { s with pending := rest }

/-- The command that a word of so many bits spells, put at the front of the queue: a control word of Table 13-2 (log 19). -/
def State.withFetchWord (s : State) (nbits w : Nat) : State :=
  match decodeTableWord nbits w with
  | some c => { s with pending := c :: s.pending }
  | none => s

/-- A word on the pins of the frame input port, ICTL and IDAT with IVALID high (R133): the command that its bits spell (R185,
Table 13-2), put at the front of the queue. -/
def State.withInputWord (s : State) (ictl : Bool) (idat : BitVec 24) : State :=
  { s with pending := decodeInputWord ictl idat :: s.pending }

end Sys2Proof.Machine
end

