-- ==== Sys2Proof/Safety.lean ====
section
/-! DEFINITION. What counts as a safe run, and the invariants that the statements use: what every step keeps, from every
state that has it. -/

namespace Sys2Proof

open Sys2Proof.Machine

/-- The first `k` steps from a state answer next states. -/
def RunsSafely : Nat → Machine.State → Prop
  | 0, _ => True
  | k + 1, s => ∃ t, Machine.step s = .next t ∧ RunsSafely k t

/-- The ranges and constraints of Table 3 that the frame, the link zone and frame memory rest on (R171, R172). -/
abbrev Settings.Fits (c : Settings) : Prop :=
  (64 ≤ c.ll ∧ c.ll ≤ 4096 ∧ 32 ≤ c.fl ∧ c.fl ≤ 2048) ∧
  (1 ≤ c.ha0 ∧ c.ha0 ≤ c.ha1 ∧ c.ha1 ≤ c.ll) ∧
  (2 ≤ c.va0 ∧ c.va0 ≤ c.va1 ∧ c.va1 < c.tw) ∧
  (1 ≤ c.hs0 ∧ c.hs0 ≤ c.hs1 ∧ c.hs1 ≤ c.ll) ∧
  (1 ≤ c.vs0 ∧ c.vs0 ≤ c.vs1 ∧ c.vs1 ≤ c.fl) ∧
  (1 ≤ c.ww ∧ c.wx + c.ww ≤ c.ha1 - c.ha0 + 1) ∧
  (1 ≤ c.wh ∧ c.wy + c.wh ≤ c.va1 - c.va0 + 1) ∧
  (2 ≤ c.n ∧ c.n ≤ 16 ∧ 1 ≤ c.sl ∧ c.sl ≤ 8 ∧ 4 ≤ c.cl ∧ c.cl ≤ 64) ∧
  (c.tw + c.n * c.sl ≤ c.vl ∧ c.vl + 2 ≤ c.sw ∧ c.sw < c.cz ∧ c.cz ≤ c.fl) ∧
  (200 ≤ c.slotCapacity ∧ 16 * c.cl ≤ c.ll ∧ 4 * c.slotSize ≤ c.memoryBytes) ∧
  (c.clampLow ≤ c.clampHigh ∧ c.inputTimeout ≤ 250 ∧ 16 ≤ c.reportDivisor ∧ c.reportDivisor ≤ 65535)

namespace Machine

/-! ## Invariants -/

/-- "At every moment 1 ≤ LN ≤ FL and 1 ≤ PX ≤ LL" (R3), with an image that fits; held, the counters are at (1, 1) (R5). -/
abbrev State.CountersInRange (s : State) : Prop :=
  (s.running = true →
    s.settings.Fits ∧ 1 ≤ s.tb.ln ∧ s.tb.ln ≤ s.settings.fl ∧ 1 ≤ s.tb.px ∧ s.tb.px ≤ s.settings.ll) ∧
  (s.running = false → s.tb.ln = 1 ∧ s.tb.px = 1)

/-- A roster entry within the ranges of Table 4-1: a run of HEARD frames and a run of other frames exclude each other, and
eight frames without HEARD leave no record (R61, R62). -/
abbrev RosterEntry.InRange (e : RosterEntry) : Prop :=
  e.heardRun ≤ 15 ∧ e.missRun ≤ 255 ∧ (e.heardRun = 0 ∨ e.missRun = 0) ∧ (8 ≤ e.missRun → e.record = none)

/-- Every run, count and list of the state tables within its range (Tables 2.3, 4-1, 5-1, 6-2, 11-2 and 12-1, R143,
R155). -/
abbrev State.RunsInRange (s : State) : Prop :=
  (s.roster.entries.length = 16 ∧ (∀ e ∈ s.roster.entries, e.InRange) ∧ (∀ i ∈ s.roster.r, i < 16)) ∧
  (s.mark.missRun ≤ 255 ∧ s.mark.silenceCount ≤ 2) ∧
  (s.consent.receptionRun ≤ 6 ∧ s.member.emptyRun ≤ 2 ∧ s.member.unheardRun ≤ 2 ∧ s.member.inputSilence ≤ 255) ∧
  s.report.queue.length ≤ 4 ∧ s.out.places.length = 3 ∧ s.input.buffers.length = 2

/-- What membership and the Timebase agree on (Tables 6-1 and 6-2, R98, R99, R101, R104, R111, R114, R115). -/
abbrev State.MembershipLegal (s : State) : Prop :=
  (s.running = false ↔ s.member.state = .config ∨ s.member.state = .halted) ∧
  (s.member.state = .listen → s.tb.state = .seeking) ∧
  (s.member.state = .joining ∨ s.member.state = .member ∨ s.member.state = .resting → s.tb.state = .tracking) ∧
  (s.member.withdrawal ≠ none → s.member.state = .member) ∧
  (s.member.park = true → s.member.withdrawal ≠ none) ∧
  (s.member.rejoin = true → s.member.state = .parked) ∧
  (s.member.state = .resting → 1 ≤ s.member.rest ∧ s.member.rest ≤ 3) ∧
  (s.member.state ≠ .resting → s.member.rest = 0) ∧
  (s.member.emptyRun ≠ 0 → s.member.state = .joining) ∧
  (s.member.unheardRun ≠ 0 → s.member.state = .member)

/-- The ready queue and the SHOWN reference agree with the four records (R116, R117). -/
abbrev SlotTable.Consistent (t : SlotTable) : Prop :=
  t.slots.length = 4 ∧ t.readyQueue.Nodup ∧
  (∀ i ∈ t.readyQueue, i < 4) ∧ (∀ i, t.shown = some i → i < 4) ∧
  (∀ i < 4, i ∈ t.readyQueue ↔ (t.slot i).state = .ready) ∧
  (∀ i < 4, t.shown = some i ↔ (t.slot i).state = .shown) ∧
  (∀ i < 4, (t.slot i).content = none ↔ (t.slot i).state = .free) ∧
  (∀ i < 4, ∀ j < 4, (t.slot i).state = .filling → (t.slot j).state = .filling → i = j) ∧
  t.readyQueue.length ≤ 3 ∧ (t.fillingSlot.isSome = true → t.readyQueue.length ≤ 2)

/-- Each READY content is newer than every one before it and than the SHOWN content (R118). -/
abbrev SlotTable.Ordered (t : SlotTable) : Prop :=
  t.readyList.Pairwise (fun a b => newer b a = true) ∧
  (∀ c, t.shownContent = some c → ∀ r ∈ t.readyList, newer r c = true)

/-- The Slot Table's bounds and order, and "a station has a SHOWN slot only while its membership state is MEMBER" (R111);
a held part's table is in its reset condition (R116, R174). -/
abbrev State.TableLegal (s : State) : Prop :=
  s.table.Consistent ∧ s.table.Ordered ∧ (s.table.shown ≠ none → s.member.state = .member) ∧
  (s.running = false → s.table = State.resetTable)

/-- The Input Port and the Slot Table speak of the same frame: a frame under reception is the FILLING slot, not yet closing;
otherwise a FILLING slot is one whose FRAME_CLOSE has been accepted (R119, R121, R135, R138). -/
abbrev State.InputLegal (s : State) : Prop :=
  (s.input.state = .filling →
    s.table.fillingSlot = some s.input.slot ∧ (s.table.slot s.input.slot).closing = false) ∧
  (s.input.state ≠ .filling → s.input.pixelCount = none ∧
    ∀ i, s.table.fillingSlot = some i → (s.table.slot i).closing = true) ∧
  (s.running = false → s.input = State.resetInput)

/-- "The arbiter makes a grant decision whenever no burst is in flight and at least one claim waits" (R150), and urgent
stands as R160 says. -/
abbrev State.MemoryPortLive (s : State) : Prop :=
  (s.port.inFlight = none → s.port.refresh = .absent ∧ s.port.readers = [] ∧ s.port.writers = []) ∧
  s.out.urgent = s.out.urgentCondition s.settings.wh s.settings.bursts

/-- Frame memory is in its canonical form (log 7). -/
abbrev State.MemoryCanonical (s : State) : Prop := ramCanonical s.ram = true

end Machine

end Sys2Proof
end

