-- ==== Sys2Proof/WellFormed.lean ====
section
/-! DEFINITION. The commands whose operands lie within the ranges the manual gives them for any image (Table 3,
Table 11-4). The bounds that depend on the accepted image are the meanings' own checks. -/

namespace Sys2Proof

/-- Frame lines are 1 to FL, at most 2048, and pixels 1 to LL, at most 4096 (Table 11-4). -/
def EdgeTime.wellFormed : EdgeTime → Bool
  | .pixel ln px => decide (1 ≤ ln ∧ ln ≤ 2048 ∧ 1 ≤ px ∧ px ≤ 4096)
  | .wrap => true

/-- Frame slots are 0 to 3 (R116) and image lines 0 to WH - 1, at most 2047. -/
def ReaderItem.wellFormed : ReaderItem → Bool
  | .frameStart => true
  | .claims slot line => decide (slot < 4 ∧ line < 2048)

/-- A burst is 64 bytes (R147), and a line has at most ceil(3 * 4096 / 64) = 192 of them. -/
def ReadData.wellFormed (d : ReadData) : Bool :=
  decide (d.slot < 4 ∧ d.line < 2048 ∧ d.burst < 192 ∧ d.data.length = 64)

/-- The operand ranges of every command. -/
def Instr.wellFormed : Instr → Bool
  | .reset _ => true
  | .resetRelease _ => true
  | .imageReadDone bytes => decide (bytes.length = 64)
  | .frameStart => true
  | .markLost => true
  | .seekSilence => true
  | .restEnd => true
  | .inputTimeout => true
  | .lineStart line => decide (2 ≤ line ∧ line ≤ 2048)
  | .markEdge time => time.wellFormed
  | .slotBegin slot => decide (slot < 16)
  | .announceSent => true
  | .slotEnd slot => decide (slot < 16)
  | .recordExpiry slot => decide (slot < 16)
  | .rollCallCell => true
  | .rollCallClose cells => decide (cells.length = 16)
  | .verdictLatch => true
  | .verdictSample _ => true
  | .swapLine => true
  | .catchZoneEntry => true
  | .imageLineStart line => decide (line < 2048)
  | .imageLineEnd line => decide (line < 2048)
  | .underrun line column => decide (line < 2048 ∧ column < 4096)
  | .readerCompletion d => d.wellFormed
  | .frameOpen _ => true
  | .frameFlags _ => true
  | .lineOpen _ => true
  | .pixelWord _ => true
  | .frameClose _ => true
  | .damagedControlWord word => decide (decodeControlWord word = .damagedControlWord word)
  | .frameOpenArrival => true
  | .leave => true
  | .rejoin => true
  | .refreshClaim => true
  | .writerClaim slot line => decide (slot < 4 ∧ line < 2048)
  | .readerClaim item => item.wellFormed
  | .burstCompletion => true
  | .memoryDiscard slot => decide (slot < 4)
  | .readerWithdrawal line => decide (line < 2048)
  | .recordSent => true
  | .markRisingEdge => true
  | .talkCellSettled cell _ => decide (cell < 8192)

end Sys2Proof
end

