-- ==== Sys2Proof/Certificates/Slice0/Obligations.lean ====
section
/-! DEFINITION. The statements for the provers. Where a statement says `t = { s with f := t.f, … }`, every field of the state
that is not named is unchanged: that is its frame. -/

open Sys2Proof Sys2Proof.Machine

/-! ## Steps and the queue -/

/-- A step with a command at the front of the queue is that command's meaning, run on the state with the queue's rest. -/
def Obligations.StepRunsTheFrontCommand : Prop :=
  ∀ (c : Instr) (rest : List Instr) (s : State),
    step { s with pending := c :: rest } = exec c { s with pending := rest }

/-- R3's table of the next pixel, as the step of an empty queue takes it. That an empty queue counts on is the MODEL's choice
(log 2). -/
def Obligations.PixelClockAdvancesTheCounters : Prop :=
  ∀ s : State, s.running = true → s.pending = [] → s.tb.phase = .ended → 1 ≤ s.tb.ln →
    (s.tb.px < s.settings.ll → ∃ t, step s = .next t ∧
      t.tb.ln = s.tb.ln ∧ t.tb.px = s.tb.px + 1 ∧ t.tb.afn = s.tb.afn ∧ t.tb.state = s.tb.state) ∧
    (s.tb.px = s.settings.ll → s.tb.ln < s.settings.fl → ∃ t, step s = .next t ∧
      t.tb.ln = s.tb.ln + 1 ∧ t.tb.px = 1 ∧ t.tb.afn = s.tb.afn ∧ Instr.lineStart (s.tb.ln + 1) ∈ t.pending) ∧
    (s.tb.px = s.settings.ll → s.tb.ln = s.settings.fl → ∃ t, step s = .next t ∧
      t.tb = s.tb ∧ Instr.frameStart ∈ t.pending)

/-- No command's meaning touches the queue: only the step of an empty queue raises commands (log 2). -/
def Obligations.EveryCommandKeepsTheQueue : Prop :=
  ∀ (c : Instr) (s t : State), exec c s = .next t → t.pending = s.pending

/-- While the part is held it takes no command but the start-up commands and the end of a record (R5, R23, R40, R60, R76, R98,
R134, R148, R156, R181). -/
def Obligations.HeldPartTakesNoCommand : Prop :=
  ∀ (c : Instr) (s : State), s.running = false →
    (∀ kind, c ≠ .reset kind) → (∀ straps, c ≠ .resetRelease straps) →
    (∀ bytes, c ≠ .imageReadDone bytes) → c ≠ .recordSent → exec c s = .next s

/-- No command is refused, and the one fault is the completion of a burst outside frame memory (R147, R172). -/
def Obligations.OnlyAnAddressOutsideMemoryStops : Prop :=
  ∀ (c : Instr) (s : State),
    (∀ r, exec c s ≠ .refused r) ∧
    (∀ f, exec c s = .fault f ↔
      f = .addressOutsideMemory ∧ c = .burstCompletion ∧ s.running = true ∧
        ∃ b, s.port.inFlight = some b ∧ b.inMemory s.settings = false)

/-! ## Start-up -/

/-- RESET puts every block in its reset condition (R5, R23, R40, R60, R76, R97, R116, R134, R148, R156, R169, R175) and the pins
at the levels of R168. -/
def Obligations.ResetPutsEveryBlockInItsResetCondition : Prop :=
  ∀ (kind : ResetKind) (s : State), ∃ t, exec (.reset kind) s = .next t ∧
    (t.running = false ∧ t.tb.ln = 1 ∧ t.tb.px = 1 ∧ t.tb.afn = 0 ∧ t.tb.state = .seeking) ∧
    (t.mark.level = .high ∧ t.mark.catchArmed = false ∧ t.mark.lastCapture = none ∧ t.mark.onTime = false ∧
      t.mark.pendingRole = none ∧ t.mark.frameRole = .none ∧ t.mark.missRun = 0 ∧ t.mark.silenceCount = 0 ∧
      t.mark.strayCount = 0) ∧
    (t.link.tx = .idle ∧ t.link.snapshot = none ∧ t.link.inputAlive = false ∧ t.link.rx = .waiting ∧
      t.link.received = [] ∧ t.link.expected = none ∧ t.link.activity = false ∧ t.link.readback = .pending ∧
      t.link.claimDriven = false ∧ t.link.latched = .none ∧ t.link.rollCall = List.replicate 16 none ∧
      t.link.verdictLevel = none) ∧
    ((∀ i < 16, t.roster.entries[i]? = some ⟨.pending, .pending, .unknown, none, 0, 0⟩) ∧
      t.roster.r = [] ∧ t.roster.previousR = []) ∧
    (t.consent = ⟨.notVoting, none, false, .none, .notVoting, .hold, 0⟩) ∧
    (t.member = ⟨.config, none, false, false, 0, 0, 0, 0, none⟩) ∧
    ((∀ i < 4, t.table.slots[i]? = some ⟨.free, none, 0, false⟩) ∧ t.table.readyQueue = [] ∧ t.table.shown = none ∧
      t.table.refused = 0 ∧ t.table.defective = 0 ∧ t.table.skipped = 0) ∧
    (t.input.state = .idle ∧ t.input.expectedLine = 0 ∧ t.input.pixelCount = none ∧ t.input.window = false ∧
      t.input.stray = 0 ∧ t.input.buffers.map LineBuffer.state = [.empty, .empty]) ∧
    (t.port = ⟨.absent, [], [], none⟩) ∧
    (t.out = ⟨none, none, false, [.vacant, .vacant, .vacant], 0, 0, false, 0⟩) ∧
    (t.loader = ⟨.held, match kind with
        | .powerOn => 0
        | .pin => s.loader.index, 0, [], List.replicate 64 none, false⟩) ∧
    (t.report = ⟨[], 0, none, .idle, 64⟩) ∧
    (t.pins = ⟨.high, .high, .high, 0, .low, .low, .low, .low, .high, some .low, .high, .low, .low⟩)

/-- The release of reset samples the straps and begins an attempt: READING, one more attempt, an empty image buffer, SCS low,
and the read command 0x03 with address 0 on SDO (R169, R170). Without a pixel clock SCS stays high and the attempt does not
advance, until the clock runs (R168). The MODEL's choices are that the command says whether the clock runs, with the count of the
attempt rising at the release (log 26), that the step of an empty queue is the first clock (log 2), and that SDO is given by the
number of its edge (log 15). -/
def Obligations.ReleaseSamplesTheStraps : Prop :=
  ∀ (straps : BitVec 4) (clockRuns : Bool) (s : State), s.loader.phase = .held →
    ∃ t, exec (.resetRelease ⟨straps, clockRuns⟩) s = .next t ∧
      t = { s with loader :=
        ⟨.reading, straps, s.loader.attempts + 1, s.loader.faults, List.replicate 64 none, !clockRuns⟩ } ∧
      (clockRuns = true →
        t.pins.scs = .low ∧ (∀ k < 32, t.sdoAt k = some (if k = 6 ∨ k = 7 then Level.high else .low)) ∧
        ∀ k < 512, t.sdoAt (32 + k) = some .low) ∧
      (clockRuns = false →
        t.pins.scs = .high ∧ t.pins.sck = some .low ∧ (∀ bytes, exec (.imageReadDone bytes) t = .next t) ∧
        (s.pending = [] → ∃ u, step t = .next u ∧
          u = { t with loader := { t.loader with clockAbsent := false } } ∧ u.pins.scs = .low))

/-- The ten checks hold on what Table 11-3 says, the field ranges of Table 11-4 and the constraints of R172 among them, with the
fields at the places of Table 13-3; the fault code is the number of the first that fails (R171); and an image that passes all
ten fits Table 3, the station's index, and frame memory (R172: no address beyond the memory). -/
def Obligations.FaultCodeIsTheFirstFailedCheck : Prop :=
  ∀ (index : BitVec 4) (image : List Byte),
    (∀ k, faultCode index image = some (k + 1) ↔
      (imageChecks index image)[k]? = some false ∧ ∀ j < k, (imageChecks index image)[j]? = some true) ∧
    (faultCode index image ≠ some 0) ∧
    (faultCode index image = none ↔ ∀ j < 10, (imageChecks index image)[j]? = some true) ∧
    (faultCode index image = none →
      (settingsOf image).Fits ∧ index.toNat < (settingsOf image).n ∧
      ∀ slot < 4, ∀ line < (settingsOf image).wh, ∀ burst < (settingsOf image).bursts,
        (settingsOf image).burstAddress slot line burst + 64 ≤ (settingsOf image).memoryBytes) ∧
    (image.length = 64 → ∀ (byte : Nat → Nat) (word : Nat → Nat),
      (∀ k, byte k = ((image[k]?).getD 0).toNat) → (∀ k, word k = 256 * byte k + byte (k + 1)) →
      ((imageChecks index image)[0]? = some true ↔ byte 0 = 0x54 ∧ byte 1 = 0x4C) ∧
      ((imageChecks index image)[1]? = some true ↔ byte 2 = 1) ∧
      ((imageChecks index image)[2]? = some true ↔ word 62 = (crc16 msbFirst (image.take 62)).toNat) ∧
      ((imageChecks index image)[3]? = some true ↔ (∀ k, 56 ≤ k → k ≤ 61 → byte k = 0) ∧ byte 50 < 16) ∧
      ((imageChecks index image)[4]? = some true ↔
        (64 ≤ word 4 ∧ word 4 ≤ 4096) ∧ (32 ≤ word 6 ∧ word 6 ≤ 2048) ∧
        (∀ k, k = 8 ∨ k = 10 ∨ k = 16 ∨ k = 18 → 1 ≤ word k ∧ word k ≤ 4096) ∧
        (∀ k, k = 12 ∨ k = 14 ∨ k = 20 ∨ k = 22 ∨ k = 34 ∨ k = 36 ∨ k = 38 ∨ k = 40 →
          1 ≤ word k ∧ word k ≤ 2048) ∧
        word 24 ≤ 4095 ∧ word 26 ≤ 2047 ∧ (1 ≤ word 28 ∧ word 28 ≤ 4096) ∧ (1 ≤ word 30 ∧ word 30 ≤ 2048) ∧
        (2 ≤ byte 3 ∧ byte 3 ≤ 16) ∧ (1 ≤ byte 32 ∧ byte 32 ≤ 8) ∧ (4 ≤ byte 33 ∧ byte 33 ≤ 64) ∧
        byte 51 ≤ 3 ∧ byte 52 ≤ 250 ∧ 16 ≤ word 53 ∧ byte 55 ≤ 1) ∧
      ((imageChecks index image)[5]? = some true ↔
        (word 8 ≤ word 10 ∧ word 10 ≤ word 4) ∧ (2 ≤ word 12 ∧ word 12 ≤ word 14 ∧ word 14 < word 34) ∧
        (word 16 ≤ word 18 ∧ word 18 ≤ word 4) ∧ (word 20 ≤ word 22 ∧ word 22 ≤ word 6) ∧
        word 24 + word 28 + word 8 ≤ word 10 + 1 ∧ word 26 + word 30 + word 12 ≤ word 14 + 1 ∧
        word 34 + byte 3 * byte 32 ≤ word 36 ∧ word 36 + 2 ≤ word 38 ∧ (word 38 < word 40 ∧ word 40 ≤ word 6) ∧
        byte 48 ≤ byte 49) ∧
      ((imageChecks index image)[6]? = some true ↔ 200 ≤ byte 32 * word 4 / byte 33) ∧
      ((imageChecks index image)[7]? = some true ↔ 16 * byte 33 ≤ word 4) ∧
      ((imageChecks index image)[8]? = some true ↔
        4 * word 30 * ((3 * word 28 + 63) / 64) * 64 ≤ 16777216 * 2 ^ byte 51) ∧
      ((imageChecks index image)[9]? = some true ↔ index.toNat < byte 3))

/-- A failed attempt is recorded and reads again, or is the third and halts the station with three CONFIG_FAULT events
(R170, R173). -/
def Obligations.FailedAttemptReadsAgainOrHalts : Prop :=
  ∀ (bytes : List Byte) (s : State) (code : Nat),
    s.loader.phase = .reading → s.loader.clockAbsent = false → bytes.length = 64 →
    faultCode s.loader.index bytes = some code →
    (s.loader.attempts < 3 →
      exec (.imageReadDone bytes) s = .next { s with
        loader := ⟨.reading, s.loader.index, s.loader.attempts + 1, s.loader.faults ++ [code],
          List.replicate 64 none, false⟩ }) ∧
    (∀ a b, s.loader.attempts = 3 → s.loader.faults = [a, b] → s.report.queue = [] → s.report.lost = 0 →
      ∃ t, exec (.imageReadDone bytes) s = .next t ∧
        t = { s with loader := t.loader, member := { s.member with state := .halted }, report := t.report } ∧
        t.loader.phase = .halted ∧ t.loader.faults = [a, b, code] ∧ t.loader.attempts = 3 ∧
        t.report.queue = [⟨.event 0 (.configFault a 1), 0⟩, ⟨.event 0 (.configFault b 2), 0⟩,
          ⟨.event 0 (.configFault code 3), 0⟩] ∧
        t.pins.attn = .high)

/-- An accepted image starts the station: the settings, LISTEN, the FIRST frame start with AFN 0, the events in attempt order,
and READY and ATTN high (R5, R99, R174). -/
def Obligations.AcceptedImageStartsTheStation : Prop :=
  ∀ (bytes : List Byte) (s : State),
    s.loader.phase = .reading → s.loader.clockAbsent = false → bytes.length = 64 →
    faultCode s.loader.index bytes = none →
    s.tb.afn = 0 → s.report.queue = [] → s.loader.faults.length ≤ 2 → s.table = State.resetTable →
    ∃ t, exec (.imageReadDone bytes) s = .next t ∧
      t.loader.phase = .accepted ∧ t.settings = settingsOf bytes ∧ t.member.state = .listen ∧
      t.tb.ln = 1 ∧ t.tb.px = 1 ∧ t.tb.afn = 0 ∧ t.tb.state = .seeking ∧ t.roster = State.resetRoster ∧
      t.report.divisor = (settingsOf bytes).reportDivisor ∧
      t.report.queue.map QueuedRecord.body =
        (s.loader.faults.zipIdx 1).map (fun p => ReportBody.event 0 (.configFault p.1 p.2)) ++
          [.event 0 (.started s.loader.index (settingsOf bytes).n)] ∧
      t.transit.refreshes = s.transit.refreshes + 1 ∧
      t.table = s.table ∧ t.input = s.input ∧ t.port = s.port ∧ t.ram = s.ram ∧
      t.pins.ready = .high ∧ t.pins.attn = .high

/-! ## Frame starts -/

/-- A natural frame start: pixel (1, 1), one advance of AFN, and every block opens the new frame (R4, R8, R27, R40, R64, R77,
R97, R149, R157, R166). The Output Pipe makes its line places VACANT, sends the frame start to the Memory Port first, and then,
with a slot latched, places image lines 0 and 1, of those the image has, each ACTIVE with no burst held, and sends their claims
(R158); urgent then stands as R160 says. For a station that does not enter LISTEN at it, the Mark Aligner closes the account of
the frame just ended and opens that of the new one (R34, R35; an edge taken at the wrap before it belongs to the new frame,
R21), the first silent frame in SEEKING is counted, and any other frame than a silent one is not (R26), and a frame without
results ends the row of empty roll calls of a JOINING station (R101, step 4). -/
def Obligations.NaturalFrameStartOpensTheFrame : Prop :=
  ∀ s : State, s.running = true → s.tb.wrapMet = false →
    ∃ t, exec .frameStart s = .next t ∧
      t = { s with tb := t.tb, mark := t.mark, link := t.link, roster := t.roster, consent := t.consent,
                   member := t.member, out := t.out, report := t.report, transit := t.transit } ∧
      (t.tb.ln = 1 ∧ t.tb.px = 1 ∧ t.tb.afn = s.tb.afn + 1 ∧ t.tb.openSlot = none ∧ t.tb.openLine = none) ∧
      t.link = { s.link with tx := .idle, snapshot := none, readback := .pending, claimDriven := false,
                             latched := .none, latchTaken := false, rollCall := List.replicate 16 none,
                             verdictLevel := none, inputAlive := false, cellSamples := [] } ∧
      t.consent = { s.consent with role := .notVoting, target := none, targetReady := false, order := .none,
                                   hold := .notVoting, verdict := .hold } ∧
      t.roster.r = [] ∧ t.roster.results = none ∧
      t.mark.catchArmed = false ∧ t.mark.strayCount = s.mark.strayCount ∧ t.mark.lastCapture = s.mark.lastCapture ∧
      (¬(s.member.state = .parked ∧ s.member.rejoin = true) → ¬(s.member.state = .resting ∧ s.member.rest ≤ 1) →
        ¬(s.member.state = .joining ∧ s.mark.began = .tracking ∧ s.tb.state = .tracking ∧ s.mark.onTime = false ∧
          3 ≤ s.mark.missRun) →
        t.mark.began = t.tb.state ∧
        (s.mark.began = .tracking ∧ s.tb.state = .tracking →
          t.mark.missRun = if s.mark.onTime = true then 0 else min (s.mark.missRun + 1) 255) ∧
        (¬(s.mark.began = .tracking ∧ s.tb.state = .tracking) → t.mark.missRun = s.mark.missRun) ∧
        t.mark.pendingRole = none ∧
        (∀ cut, s.mark.pendingRole = some (.follow cut) → t.mark.frameRole = .follow cut ∧ t.mark.onTime = true) ∧
        (∀ cut, s.mark.pendingRole = some (.jump cut) → t.mark.frameRole = .jump cut ∧ t.mark.onTime = true) ∧
        (s.mark.pendingRole = none → s.mark.edgeBeforeWrap = false →
          t.mark.frameRole = .none ∧ t.mark.onTime = false) ∧
        (s.mark.pendingRole = none → s.mark.edgeBeforeWrap = true →
          t.mark.frameRole = .lead ∧ t.mark.onTime = true) ∧
        (s.mark.began = .seeking → s.tb.state = .seeking → s.mark.silenceCount = 0 →
          t.mark.silenceCount = 1 ∧ t.tb.state = .seeking ∧ t.member.state = s.member.state ∧ t.report = s.report) ∧
        (¬(s.mark.began = .seeking ∧ s.tb.state = .seeking) →
          t.mark.silenceCount = s.mark.silenceCount ∧ t.tb.state = s.tb.state ∧ t.member.state = s.member.state) ∧
        (s.member.state = .joining →
          t.member.emptyRun = if s.roster.results = none then 0 else s.member.emptyRun)) ∧
      t.member.verdictLevel = none ∧
      t.member.inputSilence = min (s.member.inputSilence + 1) 255 ∧
      t.out.previous = s.out.latched ∧
      t.out.latched = (if s.member.state = .member then s.table.shown else none) ∧
      (t.out.flip = true ↔ t.out.latched ≠ none ∧ t.out.latched ≠ s.out.latched) ∧
      t.out.currentLine = 0 ∧ t.out.underruns = s.out.underruns ∧
      (t.out.latched = none ∨ s.settings.wh = 0 →
        t.out.places = s.out.places.map (fun _ => .vacant) ∧ t.out.nextLine = 0 ∧ t.out.urgent = false ∧
        t.transit.readerItems = s.transit.readerItems ++ [.item .frameStart]) ∧
      (∀ slot, t.out.latched = some slot → s.out.places.length = 3 →
        (s.settings.wh = 1 →
          t.out.places = [.holds 0 0 .active [], .vacant, .vacant] ∧ t.out.nextLine = 1 ∧
          t.transit.readerItems = s.transit.readerItems ++ [.item .frameStart, .item (.claims slot 0)]) ∧
        (2 ≤ s.settings.wh →
          t.out.places = [.holds 0 0 .active [], .holds 1 0 .active [], .vacant] ∧ t.out.nextLine = 2 ∧
          t.transit.readerItems =
            s.transit.readerItems ++ [.item .frameStart, .item (.claims slot 0), .item (.claims slot 1)]) ∧
        (1 ≤ s.settings.wh → 1 ≤ s.settings.ww → t.out.urgent = true)) ∧
      t.transit.refreshes = s.transit.refreshes + 1

/-- At a natural frame start the roster moves on, at every station that does not enter LISTEN there: slots still PENDING in a
TRACKING frame are missed, outcomes become previous outcomes, R becomes previous R (R64). -/
def Obligations.RosterClosesTheFrame : Prop :=
  ∀ s : State, s.running = true → s.tb.wrapMet = false → s.roster.entries.length = 16 →
    ¬(s.member.state = .parked ∧ s.member.rejoin = true) → ¬(s.member.state = .resting ∧ s.member.rest ≤ 1) →
    ¬(s.member.state = .joining ∧ s.mark.began = .tracking ∧ s.tb.state = .tracking ∧ s.mark.onTime = false ∧
      3 ≤ s.mark.missRun) →
    ∃ t, exec .frameStart s = .next t ∧ t.roster.r = [] ∧ t.roster.previousR = s.roster.r ∧ t.roster.results = none ∧
      ∀ i < 16, t.roster.entry i =
        if s.tb.state = .tracking ∧ i < s.settings.n ∧ (s.roster.entry i).outcome = .pending then
          { outcome := .pending, previous := .pending, claimed := .unknown,
            record := if min ((s.roster.entry i).missRun + 1) 255 = 8 then none else (s.roster.entry i).record,
            heardRun := 0, missRun := min ((s.roster.entry i).missRun + 1) 255 }
        else { s.roster.entry i with outcome := .pending, previous := (s.roster.entry i).outcome, claimed := .unknown }

/-- MARK_LOST: the fourth miss makes a withdrawal of a MEMBER pending, unless one is pending already, and returns a JOINING
station to LISTEN; in RESTING and PARKED it is the event alone (R34, R101, R104). INPUT_TIMEOUT: a silent input makes a withdrawal
of a MEMBER pending, unless one is pending already (R102, R104). The event tells of the membership state at the last pixel clock
of the frame just ended (R34): where that pixel has ended it is the state at its end, whatever a LEAVE taken first at the frame
start's own pixel clock has made of it, and otherwise the state as it stands. That the model reads it so is DEDUCED (log 27). That
each of the two commands is the whole natural frame start at which its threshold is met, with its advance of AFN, is the MODEL's
choice (log 16). -/
def Obligations.FourthMissAndSilentInputWithdraw : Prop :=
  ∀ (s : State) (last : MembershipState), s.running = true → s.tb.wrapMet = false →
    last = (if s.tb.phase = .ended then s.tb.stateAtEnd else s.member.state) →
    (s.tb.state = .tracking → s.mark.began = .tracking → s.mark.onTime = false → s.mark.missRun = 3 →
      s.report.queue.length < 4 →
      (s.member.state = .member →
        ∃ t, exec .markLost s = .next t ∧ t.tb.afn = s.tb.afn + 1 ∧ t.mark.missRun = 4 ∧
          t.member.state = .member ∧ t.member.withdrawal = some (s.member.withdrawal.getD .markLost) ∧
          t.table = s.table ∧
          t.report.queue = s.report.queue ++ [⟨.event (s.tb.afn + 1) (.markLost last), s.report.lost⟩]) ∧
      (s.member.state = .joining →
        ∃ t, exec .markLost s = .next t ∧ t.tb.afn = s.tb.afn + 1 ∧ t.member.state = .listen ∧
          t.tb.state = .seeking ∧ t.mark.missRun = 0 ∧ t.roster = State.resetRoster ∧ t.table = s.table ∧
          t.report.queue = s.report.queue ++ [⟨.event (s.tb.afn + 1) (.markLost last), s.report.lost⟩]) ∧
      (s.member.state = .resting ∧ 2 ≤ s.member.rest ∨ s.member.state = .parked ∧ s.member.rejoin = false →
        ∃ t, exec .markLost s = .next t ∧ t.tb.afn = s.tb.afn + 1 ∧ t.tb.state = .tracking ∧ t.mark.missRun = 4 ∧
          t.member = { s.member with
            rest := if s.member.state = .resting then s.member.rest - 1 else s.member.rest
            verdictLevel := none
            inputSilence := min (s.member.inputSilence + 1) 255 } ∧
          t.table = s.table ∧
          t.report.queue = s.report.queue ++ [⟨.event (s.tb.afn + 1) (.markLost last), s.report.lost⟩])) ∧
    (s.member.state = .member → s.mark.missRun < 3 →
      s.settings.inputTimeout ≠ 0 → s.settings.inputTimeout < min (s.member.inputSilence + 1) 255 →
      ∃ t, exec .inputTimeout s = .next t ∧ t.tb.afn = s.tb.afn + 1 ∧ t.member.state = .member ∧
        t.member.withdrawal = some (s.member.withdrawal.getD .inputSilent) ∧
        t.member.inputSilence = min (s.member.inputSilence + 1) 255 ∧ t.table = s.table)

/-- SEEK_SILENCE: the second silent frame starts tracking; a station in LISTEN starts joining, and a PARKED one stays so (R26,
R100, R114). REST_END: a rest that runs out ends in LISTEN (R99, R101), as does at FRAME_START the stay of a PARKED station
whose rejoin request is set (R101, R115), and a longer rest counts down at FRAME_START (R101, R112). That SEEK_SILENCE and
REST_END are the whole natural frame start at which their threshold is met, with its advance of AFN, is the MODEL's choice (log
16). Where a PARKED station leaves at the very frame start of seek silence, that it ends SEEKING in LISTEN, its seek order after
the track order of the silence, is the MODEL's choice too (log 13). -/
def Obligations.SilenceAndRestRunOut : Prop :=
  ∀ s : State, s.running = true → s.tb.wrapMet = false →
    (s.member.state = .listen ∨ s.member.state = .parked ∧ s.member.rejoin = false →
      s.tb.state = .seeking → s.mark.began = .seeking → s.mark.silenceCount = 1 → s.report.queue.length < 4 →
      ∃ t, exec .seekSilence s = .next t ∧ t.tb.afn = s.tb.afn + 1 ∧ t.tb.state = .tracking ∧
        t.mark.silenceCount = 0 ∧ t.mark.began = .tracking ∧
        t.member.state = (if s.member.state = .listen then .joining else .parked) ∧
        t.member.emptyRun = (if s.member.state = .listen then 0 else s.member.emptyRun) ∧ t.table = s.table ∧
        t.report.queue = s.report.queue ++ [⟨.event (s.tb.afn + 1) .trackingSilence, s.report.lost⟩]) ∧
    (∀ c : Instr, c = .restEnd ∧ s.member.state = .resting ∧ s.member.rest = 1 ∨
        c = .frameStart ∧ s.member.state = .parked ∧ s.member.rejoin = true →
      ∃ t, exec c s = .next t ∧ t.tb.afn = s.tb.afn + 1 ∧ t.tb.state = .seeking ∧
        t.member.state = .listen ∧ t.member.rest = 0 ∧ t.member.emptyRun = 0 ∧ t.member.unheardRun = 0 ∧
        t.member.park = false ∧ t.member.rejoin = false ∧ t.roster = State.resetRoster ∧
        t.mark.missRun = 0 ∧ t.mark.silenceCount = 0 ∧ t.mark.onTime = false ∧ t.mark.pendingRole = none ∧
        t.mark.frameRole = .none ∧ t.mark.strayCount = s.mark.strayCount ∧ t.table = s.table) ∧
    (s.member.state = .resting → s.tb.state = .tracking → 2 ≤ s.member.rest →
      ∃ t, exec .frameStart s = .next t ∧ t.member.state = .resting ∧ t.member.rest = s.member.rest - 1 ∧
        t.tb.state = s.tb.state)

/-- LINE_START of lines 2 to FL stands at pixel 1, releases MARK and sends one refresh claim (R3, R18, R22, R149);
CATCH_ZONE_ENTRY stands at (CZ, 1) and arms the catch zone (R17, R27); MARK_RISING_EDGE sets the filtered level and nothing else
(R20). MARK is driven low at exactly the pixel clocks of line 1 of a TRACKING station that is JOINING, MEMBER or PARKED (R22). The
filter takes one sample each pixel clock, the first three set the level without an edge, and later the third of
three equal samples is an edge (R20). That the two positions are reached from wherever LN and PX stand is the MODEL's choice
(log 1), that MARK_RISING_EDGE acts at any level and samples is too (log 23), and so is the step that samples (log 2). -/
def Obligations.LineStartCatchZoneEntryAndRisingEdge : Prop :=
  (∀ s : State, s.pins.mark = .low ↔ s.running = true ∧ s.tb.ln = 1 ∧ s.tb.state = .tracking ∧
    (s.member.state = .joining ∨ s.member.state = .member ∨ s.member.state = .parked)) ∧
  ∀ s : State, s.running = true → 1 ≤ s.settings.ll →
    (∀ line, 2 ≤ line → line ≤ s.settings.fl → ∃ t, exec (.lineStart line) s = .next t ∧
      t = { s with tb := t.tb, transit := { s.transit with refreshes := s.transit.refreshes + 1 } } ∧
      t.tb = { s.tb with ln := line, px := 1, phase := t.tb.phase, wrapMet := t.tb.wrapMet,
                         stateBefore := t.tb.stateBefore } ∧
      t.pins.mark = .high) ∧
    (1 ≤ s.settings.cz → s.settings.cz ≤ s.settings.fl → ∃ t, exec .catchZoneEntry s = .next t ∧
      t = { s with tb := t.tb, mark := { s.mark with catchArmed := true } } ∧
      t.tb = { s.tb with ln := s.settings.cz, px := 1, phase := t.tb.phase, wrapMet := t.tb.wrapMet,
                         stateBefore := t.tb.stateBefore }) ∧
    exec .markRisingEdge s = .next { s with mark := { s.mark with level := .high } } ∧
    (s.pending = [] → s.tb.phase = .begun → ∃ (t : State) (l : Level), step s = .next t ∧
      (s.pins.mark = .low → l = .low) ∧
      t.mark = { s.mark with level := t.mark.level, samples := t.mark.samples } ∧
      (s.mark.samples.length ≤ 1 →
        t.mark.samples = s.mark.samples ++ [l] ∧ t.mark.level = s.mark.level ∧ t.pending = []) ∧
      (∀ a b, s.mark.samples = [a, b] → t.mark.samples = [a, b, l] ∧ t.pending = [] ∧
        t.mark.level = if a = .low ∧ b = .low ∧ l = .low then .low else .high) ∧
      (∀ a b c, s.mark.samples = [a, b, c] → t.mark.samples = [b, c, l] ∧ t.mark.level = s.mark.level ∧
        t.pending =
          if b = .low ∧ c = .low ∧ l = .low ∧ s.mark.level = .high then [.markEdge (.pixel s.tb.ln s.tb.px)]
          else if b = .high ∧ c = .high ∧ l = .high ∧ s.mark.level = .low then [.markRisingEdge]
          else []))

/-! ## Falling edges of MARK -/

/-- An edge taken in SEEKING is followed, by a station in LISTEN, which starts joining, and by one in PARKED, which stays so:
the role JUMP with its cut length and EVENT TRACKING with the detail EDGE come with a reload and a track order (R6, R25, R33,
R35, R100, R114). At a frame start already taken, position (1, 1), the track order alone changes the state (R21), and the role
waits (R35, log 14). At the pixel clock of a wrap, before it, the reload makes the frame start, with a cut of zero lines, and
the event carries the AFN of the frame that begins there (R6, R21, R180; DEDUCED, log 11). A PARKED station whose rejoin request
is set enters LISTEN at the frame start of the reload (R99, R101, R115), and is SEEKING there, its seek order after the track
order (DEDUCED, log 28). That LN and PX are brought to (1, 1) from wherever they stood is the MODEL's choice (log 1). -/
def Obligations.SeekingEdgeIsFollowed : Prop :=
  ∀ s : State, s.running = true → s.tb.state = .seeking →
    s.member.state = .listen ∨ s.member.state = .parked → s.report.queue.length < 4 →
    (∀ ln px, 1 ≤ ln → ln ≤ s.settings.fl → 1 ≤ px → px ≤ s.settings.ll → ¬(ln = 1 ∧ px = 1) →
      ∃ t, exec (.markEdge (.pixel ln px)) s = .next t ∧
        t = { s with tb := t.tb, mark := t.mark, link := t.link, roster := t.roster, consent := t.consent,
                     member := t.member, out := t.out, report := t.report, transit := t.transit } ∧
        t.tb.ln = 1 ∧ t.tb.px = 1 ∧ t.tb.afn = s.tb.afn + 1 ∧
        t.mark.level = .low ∧ t.mark.lastCapture = some ⟨ln, px, .followedSeek⟩ ∧ t.mark.pendingRole = none ∧
        t.mark.silenceCount = 0 ∧ t.mark.strayCount = s.mark.strayCount ∧
        (¬(s.member.state = .parked ∧ s.member.rejoin = true) →
          t.tb.state = .tracking ∧ t.mark.frameRole = .jump (s.settings.fl - ln + 1) ∧ t.mark.onTime = true ∧
          t.mark.missRun = s.mark.missRun ∧
          t.member.state = (if s.member.state = .listen then .joining else .parked)) ∧
        (s.member.state = .parked → s.member.rejoin = true →
          t.tb.state = .seeking ∧ t.member.state = .listen ∧ t.member.rejoin = false ∧ t.roster = State.resetRoster ∧
          t.mark.missRun = 0 ∧ t.mark.frameRole = .none ∧ t.mark.onTime = false ∧ t.mark.began = .seeking) ∧
        ∃ afn, t.report.queue =
          s.report.queue ++ [⟨.event afn (.trackingEdge (s.settings.fl - ln + 1)), s.report.lost⟩]) ∧
    (1 ≤ s.settings.fl → 1 ≤ s.settings.ll → s.mark.silenceHere = false →
      ∃ t, exec (.markEdge (.pixel 1 1)) s = .next t ∧
      t = { s with tb := t.tb, mark := t.mark, member := t.member, report := t.report } ∧
      t.tb = { s.tb with ln := 1, px := 1, state := .tracking, phase := t.tb.phase, wrapMet := t.tb.wrapMet,
                         stateBefore := t.tb.stateBefore } ∧
      t.mark = { s.mark with
        level := .low
        lastCapture := some ⟨1, 1, .followedSeek⟩
        pendingRole := some (.jump 0)
        silenceCount := 0 } ∧
      t.member = { s.member with
        state := if s.member.state = .listen then .joining else .parked
        emptyRun := if s.member.state = .listen then 0 else s.member.emptyRun } ∧
      t.report.queue = s.report.queue ++ [⟨.event s.tb.afn (.trackingEdge 0), s.report.lost⟩]) ∧
    (∃ t, exec (.markEdge .wrap) s = .next t ∧
      t.tb.ln = 1 ∧ t.tb.px = 1 ∧ t.tb.afn = s.tb.afn + 1 ∧
      t.mark.level = .low ∧ t.mark.lastCapture = some ⟨1, 1, .followedSeek⟩ ∧ t.mark.pendingRole = none ∧
      t.mark.silenceCount = 0 ∧
      (¬(s.member.state = .parked ∧ s.member.rejoin = true) →
        t.tb.state = .tracking ∧ t.mark.frameRole = .jump 0 ∧ t.mark.onTime = true ∧
        t.member.state = (if s.member.state = .listen then .joining else .parked)) ∧
      (s.member.state = .parked → s.member.rejoin = true →
        t.tb.state = .seeking ∧ t.member.state = .listen ∧ t.member.rejoin = false ∧ t.roster = State.resetRoster ∧
        t.mark.missRun = 0 ∧ t.mark.frameRole = .none ∧ t.mark.onTime = false ∧ t.mark.began = .seeking) ∧
      t.report.queue = s.report.queue ++ [⟨.event (s.tb.afn + 1) (.trackingEdge 0), s.report.lost⟩])

/-- An on-time own edge sets the on-time flag, makes the role NONE a LEAD, and reloads nothing, in every membership state
(R28, R29). The one edge in the first cell that is none is that at (1, 1) of a frame start at which seek silence was reached: it
is followed by R25 in place of the silence, whose record then tells of the edge (R26). That the record told again is the newest of
its kind, and none where it was lost, is the MODEL's choice (log 4), and so is that LN and PX then stand at (1, px), wherever they
stood (log 1); that the role waits and the frame did not begin in TRACKING is DEDUCED (log 14). -/
def Obligations.OnTimeEdgeCreditsTheFrame : Prop :=
  ∀ (s : State) (px : Nat), s.running = true → 1 ≤ s.settings.fl → 1 ≤ px → px ≤ s.settings.ll →
    (s.tb.state = .tracking → px ≤ s.settings.cl → (px = 1 → s.mark.silenceHere = false) →
      ∃ t, exec (.markEdge (.pixel 1 px)) s = .next t ∧
        t = { s with tb := t.tb, mark := { s.mark with
                level := .low
                lastCapture := some ⟨1, px, .onTimeOwn⟩
                onTime := true
                frameRole := if s.mark.frameRole = .none then .lead else s.mark.frameRole } } ∧
        t.tb = { s.tb with ln := 1, px := px,
                           phase := t.tb.phase, wrapMet := t.tb.wrapMet, stateBefore := t.tb.stateBefore }) ∧
    (px = 1 → s.mark.silenceHere = true →
      ∃ t, exec (.markEdge (.pixel 1 px)) s = .next t ∧
        t = { s with
          tb := t.tb
          mark := { s.mark with
            level := .low
            lastCapture := some ⟨1, 1, .followedSeek⟩
            pendingRole := some (.jump 0)
            silenceCount := 0
            began := .seeking
            silenceHere := false
            silenceTold := false }
          member := { s.member with
            state := if s.member.state = .listen then .joining else s.member.state
            emptyRun := if s.member.state = .listen then 0 else s.member.emptyRun }
          report := { s.report with queue := t.report.queue } } ∧
        t.tb = { s.tb with ln := 1, px := 1, state := .tracking,
                           phase := t.tb.phase, wrapMet := t.tb.wrapMet, stateBefore := t.tb.stateBefore } ∧
        (s.mark.silenceTold = false → t.report.queue = s.report.queue) ∧
        (∀ older newer afn lost, s.mark.silenceTold = true →
          s.report.queue = older ++ ⟨.event afn .trackingSilence, lost⟩ :: newer →
          (∀ q ∈ newer, ∀ a, q.body ≠ .event a .trackingSilence) →
          t.report.queue = older ++ ⟨.event afn (.trackingEdge 0), lost⟩ :: newer))

/-- A catch edge reloads in every membership state: the ended frame is credited, and the new one takes the role FOLLOW with the
cut length (R30, R33, R34, R35). An edge is a catch edge where catch armed is set or its line is CZ or later (R17, R27, R28):
that one of the two is enough, where a queue has them differ, is DEDUCED (log 29). A PARKED station whose rejoin request is set,
and a RESTING one whose rest runs out, enter LISTEN at that frame start (R99, R101, R112, R115). -/
def Obligations.CatchEdgeReloadsTheFrame : Prop :=
  ∀ (s : State) (ln px : Nat), s.running = true → s.tb.state = .tracking →
    s.mark.catchArmed = true ∨ s.settings.cz ≤ ln → 2 ≤ ln → ln ≤ s.settings.fl → 1 ≤ px → px ≤ s.settings.ll →
    ∃ t, exec (.markEdge (.pixel ln px)) s = .next t ∧
      t = { s with tb := t.tb, mark := t.mark, link := t.link, roster := t.roster, consent := t.consent,
                   member := t.member, out := t.out, report := t.report, transit := t.transit } ∧
      t.tb.ln = 1 ∧ t.tb.px = 1 ∧ t.tb.afn = s.tb.afn + 1 ∧
      t.mark.level = .low ∧ t.mark.lastCapture = some ⟨ln, px, .catchEdge⟩ ∧ t.mark.pendingRole = none ∧
      t.mark.catchArmed = false ∧ t.mark.strayCount = s.mark.strayCount ∧
      (s.mark.began = .tracking → t.mark.missRun = 0) ∧ t.link.tx = .idle ∧
      (¬(s.member.state = .parked ∧ s.member.rejoin = true) → ¬(s.member.state = .resting ∧ s.member.rest ≤ 1) →
        t.tb.state = .tracking ∧ t.member.state = s.member.state ∧
        t.mark.frameRole = .follow (s.settings.fl - ln + 1) ∧ t.mark.onTime = true) ∧
      (s.member.state = .parked ∧ s.member.rejoin = true ∨ s.member.state = .resting ∧ s.member.rest ≤ 1 →
        t.tb.state = .seeking ∧ t.member.state = .listen ∧ t.member.rejoin = false ∧ t.member.rest = 0 ∧
        t.roster = State.resetRoster ∧ t.mark.missRun = 0 ∧ t.mark.frameRole = .none ∧ t.mark.onTime = false)

/-- A stray edge is counted; a MEMBER ignores it, and a JOINING, PARKED or RESTING station reloads (R31, R36), with the role
JUMP where it does not enter LISTEN at that frame start (R33, R35), and with LISTEN where the fourth miss, the rejoin request or
the end of the rest brings it there (R99, R101, R115). The reload first cuts what has begun and not ended: the open talk slot is
DAMAGED or SILENT by its activity, and the open image line ends (R7, R53, R62, R161); that this holds of the own slot too, cut
before any cell was sampled low, is the MODEL's choice (log 32). A fourth miss at that frame start is
reported, with the membership state at the last pixel clock before the reload's (R34): that it is held as the model holds it is
DEDUCED (log 27). An edge is stray where catch armed is clear and its line lies before CZ (R17, R28; log 29). That LN and PX
stand at the edge's position, wherever they stood, is the MODEL's choice (log 1). -/
def Obligations.StrayEdgeMovesOnlyNonMembers : Prop :=
  ∀ (s : State) (ln px : Nat), s.running = true → s.tb.state = .tracking → s.mark.catchArmed = false →
    ln < s.settings.cz → 1 ≤ s.settings.cl → 1 ≤ ln → ln ≤ s.settings.fl → 1 ≤ px → px ≤ s.settings.ll →
    ¬(ln = 1 ∧ px ≤ s.settings.cl) →
    (s.member.state = .member → ∃ t, exec (.markEdge (.pixel ln px)) s = .next t ∧
      t = { s with tb := t.tb, mark := { s.mark with
              level := .low
              lastCapture := some ⟨ln, px, .stray⟩
              strayCount := s.mark.strayCount + 1 } } ∧
      t.tb = { s.tb with ln := ln, px := px,
                         phase := t.tb.phase, wrapMet := t.tb.wrapMet, stateBefore := t.tb.stateBefore }) ∧
    (s.member.state = .joining ∨ s.member.state = .parked ∨ s.member.state = .resting →
      ∀ enters : Prop, (enters ↔
        s.member.state = .joining ∧ s.mark.began = .tracking ∧ s.mark.onTime = false ∧ 3 ≤ s.mark.missRun ∨
        s.member.state = .parked ∧ s.member.rejoin = true ∨ s.member.state = .resting ∧ s.member.rest ≤ 1) →
      ∃ t, exec (.markEdge (.pixel ln px)) s = .next t ∧
        t = { s with tb := t.tb, mark := t.mark, link := t.link, roster := t.roster, consent := t.consent,
                     member := t.member, out := t.out, report := t.report, transit := t.transit } ∧
        t.tb.ln = 1 ∧ t.tb.px = 1 ∧ t.tb.afn = s.tb.afn + 1 ∧ t.tb.openSlot = none ∧ t.tb.openLine = none ∧
        t.mark.lastCapture = some ⟨ln, px, .stray⟩ ∧ t.mark.strayCount = s.mark.strayCount + 1 ∧
        t.mark.pendingRole = none ∧
        (¬enters → t.tb.state = .tracking ∧ t.member.state = s.member.state ∧
          t.mark.frameRole = .jump (s.settings.fl - ln + 1) ∧ t.mark.onTime = true) ∧
        (enters → t.tb.state = .seeking ∧ t.member.state = .listen ∧ t.member.rejoin = false ∧ t.member.rest = 0 ∧
          t.member.emptyRun = 0 ∧ t.roster = State.resetRoster ∧ t.mark.missRun = 0 ∧ t.mark.frameRole = .none ∧
          t.mark.onTime = false ∧ t.mark.began = .seeking) ∧
        (s.mark.began = .tracking → s.mark.onTime = false → s.mark.missRun = 3 → s.report.queue.length < 4 →
          t.report.queue = s.report.queue ++ [⟨.event (s.tb.afn + 1) (.markLost (
            if s.tb.ln = ln ∧ s.tb.px = px then s.tb.stateBefore
            else if s.tb.phase = .ended then s.tb.stateAtEnd else s.member.state)), s.report.lost⟩]) ∧
        (∀ i, ¬enters → s.tb.openSlot = some i → i < 16 → s.roster.entries.length = 16 →
          t.roster.entry i =
            { outcome := .pending, previous := if s.link.activity = true then .damaged else .silent,
              claimed := .unknown,
              record := if min ((s.roster.entry i).missRun + 1) 255 = 8 then none else (s.roster.entry i).record,
              heardRun := 0, missRun := min ((s.roster.entry i).missRun + 1) 255 }) ∧
        (∀ j, s.tb.openLine = some j → ∃ more,
          t.transit.readerItems = s.transit.readerItems ++ [.withdraw j] ++ more))

/-- A natural frame start and an edge at one pixel clock give one frame start and one advance of AFN, in either order
(R6, R21). -/
def Obligations.OneFrameStartAtTheWrap : Prop :=
  ∀ s : State, s.running = true → s.tb.wrapMet = false → 1 ≤ s.settings.cl →
    (∃ t u, exec .frameStart s = .next t ∧ exec (.markEdge (.pixel 1 1)) t = .next u ∧
      u.tb.ln = 1 ∧ u.tb.px = 1 ∧ u.tb.afn = s.tb.afn + 1) ∧
    (∃ t u, exec (.markEdge .wrap) s = .next t ∧ exec .frameStart t = .next u ∧
      u.tb.ln = 1 ∧ u.tb.px = 1 ∧ u.tb.afn = s.tb.afn + 1)

/-! ## Talk slots -/

/-- At slot begin the receiver of a TRACKING station is set afresh, and in its own slot a permitted station takes its snapshot
and starts to send; otherwise it stays silent (R43, R45, R48, R73). That LN and PX are brought to the slot's first pixel, wherever
they stood, is the MODEL's choice (log 1). -/
def Obligations.SlotBeginReadiesReceiverAndSender : Prop :=
  ∀ (s : State) (slot : Nat), s.running = true → slot < s.settings.n → 1 ≤ s.settings.ll →
    1 ≤ s.settings.tw → s.settings.tw + slot * s.settings.sl ≤ s.settings.fl →
    ∃ t, exec (.slotBegin slot) s = .next t ∧
      t = { s with tb := t.tb, link := t.link } ∧
      t.tb = { s.tb with ln := s.settings.tw + slot * s.settings.sl, px := 1, openSlot := some slot,
                         phase := t.tb.phase, wrapMet := t.tb.wrapMet, stateBefore := t.tb.stateBefore } ∧
      (s.tb.state = .tracking → t.link.rx = .waiting ∧ t.link.received = [] ∧ t.link.expected = none ∧
        t.link.activity = false) ∧
      (slot = s.own → s.tb.state = .tracking →
        s.member.state = .joining ∨ s.member.state = .member ∨ s.member.state = .parked →
        t.link.tx = .sending ∧ t.link.charIndex = 0 ∧ t.link.cellIndex = 0 ∧
        ∃ a : Snapshot, t.link.snapshot = some a.bytes ∧ a.sender = s.loader.index ∧ a.heard.afn = s.tb.afn ∧
          (s.member.state = .joining → a.heard.state = .joining) ∧
          (s.member.state = .member → a.heard.state = .member) ∧
          (s.member.state = .parked → a.heard.state = .parked) ∧
          a.heard.shown = s.table.shownContent ∧ a.heard.ready = s.table.readyList ∧
          (∀ j < 16, a.heard.heardMap.getLsbD j = decide ((s.roster.entry j).previous = .heard)) ∧
          (a.readyFull = true ↔ s.table.readyQueue.length = 3) ∧ a.inputAlive = s.link.inputAlive ∧
          (a.withdrawPending = true ↔ s.member.withdrawal ≠ none)) ∧
      (slot = s.own →
        ¬(s.tb.state = .tracking ∧
          (s.member.state = .joining ∨ s.member.state = .member ∨ s.member.state = .parked)) →
        t.link.tx = .idle ∧ t.link.snapshot = none) ∧
      (slot ≠ s.own → t.link.tx = s.link.tx ∧ t.link.snapshot = s.link.snapshot)

/-- The receiver handles a settled cell by its phase (R38, R49, R50). -/
def Obligations.ReceiverFollowsThePhaseTable : Prop :=
  ∀ (s : State) (slot cell : Nat) (samples : Samples), s.running = true → s.tb.openSlot = some slot →
    s.tb.state = .tracking → cell < s.settings.slotCapacity →
    ∃ t, exec (.talkCellSettled cell samples) s = .next t ∧
      t = { s with tb := t.tb, link := t.link } ∧ t.tb.afn = s.tb.afn ∧ t.tb.openSlot = some slot ∧
      (samples.level = .low ↔ samples.first = .low ∧ samples.middle = .low ∨
        samples.first = .low ∧ samples.last = .low ∨ samples.middle = .low ∧ samples.last = .low) ∧
      (t.link.activity = true ↔ s.link.activity = true ∨ samples.level = .low) ∧
      (s.link.rx = .waiting ∨ s.link.rx = .between → samples.level = .low →
        t.link.rx = .inCharacter 1 [] .low ∧ t.link.received = s.link.received) ∧
      (s.link.rx = .waiting ∨ s.link.rx = .between ∨ s.link.rx = .complete → samples.level = .high →
        t.link.rx = s.link.rx ∧ t.link.received = s.link.received) ∧
      (s.link.rx = .complete → samples.level = .low → t.link.rx = .broken) ∧
      (s.link.rx = .broken → t.link.rx = .broken ∧ t.link.received = s.link.received) ∧
      ∀ (k : Nat) (bits : List Bool) (lead : Level), s.link.rx = .inCharacter k bits lead →
        (k ≤ 8 → t.link.rx = .inCharacter (k + 1) (bits ++ [decide (samples.level = .high)]) lead ∧
          t.link.received = s.link.received) ∧
        (k = 9 → t.link.rx = .inCharacter 10 bits samples.level ∧ t.link.received = s.link.received) ∧
        (k = 10 → samples.level = .low → t.link.rx = .broken ∧ t.link.received = s.link.received) ∧
        (k = 10 → samples.level = .high →
          lead ≠ (if s.link.received = [] then Level.high else Level.low) →
          t.link.rx = .broken ∧ t.link.received = s.link.received) ∧
        (k = 10 → samples.level = .high →
          lead = (if s.link.received = [] then Level.high else Level.low) →
          t.link.received = s.link.received ++ [byteOfBits bits] ∧
          (t.link.received.length = 7 → 3 < (byteOfBits bits).toNat → t.link.rx = .broken) ∧
          (t.link.received.length = 7 → (byteOfBits bits).toNat ≤ 3 →
            t.link.expected = some (11 + 2 * (byteOfBits bits).toNat) ∧ t.link.rx = .between) ∧
          (t.link.received.length ≠ 7 → t.link.expected = s.link.expected) ∧
          (t.link.received.length ≠ 7 → s.link.expected = some t.link.received.length → t.link.rx = .complete) ∧
          (t.link.received.length ≠ 7 → s.link.expected ≠ some t.link.received.length → t.link.rx = .between))

/-- When the last stop cell of the own message ends, the transmit phase is SENT and TALK is released (R42). TALK is driven low
at exactly the pixels of the own talk slot's low cells, while the station sends and tracks (R15, R37, R42). Cells 0 and 1 are
high, and character c takes cells 2 + 11c to 12 + 11c: its start cell low, its data cells low for the 0 bits, least significant
bit first, its lead cell low in every character but the first, and its stop cell high (R41, R42). -/
def Obligations.AnnounceSentEndsTheTransmission : Prop :=
  (∀ s : State, s.running = true → s.link.tx = .sending →
    ∃ t, exec .announceSent s = .next t ∧
      t = { s with tb := t.tb, link := { s.link with tx := .sent } } ∧
      t.tb = { s.tb with ln := t.tb.ln, px := t.tb.px, phase := t.tb.phase, wrapMet := t.tb.wrapMet,
                         stateBefore := t.tb.stateBefore, stateAtEnd := t.tb.stateAtEnd } ∧
      t.pins.talk = .high) ∧
  (∀ (s : State) (first cell : Nat), first = s.settings.tw + s.own * s.settings.sl →
    cell = ((s.tb.ln - first) * s.settings.ll + s.tb.px - 1) / s.settings.cl →
    (s.pins.talk = .low ↔ s.running = true ∧ s.link.tx = .sending ∧ s.tb.state = .tracking ∧
      s.own < s.settings.n ∧ first ≤ s.tb.ln ∧ s.tb.ln < first + s.settings.sl ∧
      cell < s.settings.sl * s.settings.ll / s.settings.cl ∧
      ∃ message, s.link.snapshot = some message ∧ messageCell message cell = .low)) ∧
  (∀ (message : List Byte) (k : Nat), messageCell message k = .low ↔
    ∃ (c : Nat) (byte : Byte), message[c]? = some byte ∧
      (k = 2 + 11 * c ∨ (∃ bit < 8, k = 3 + 11 * c + bit ∧ byte.getLsbD bit = false) ∨ k = 11 + 11 * c ∧ c ≠ 0))

/-- The uncut end of a talk slot in a TRACKING frame settles its outcome and writes its roster entry, and nothing of any other
entry (R52, R61, R62); the own slot of a station that did not transmit, whose transmit phase stayed IDLE, is DAMAGED where
another station drove the line, whatever it sent (R43, R54, R63); in a SEEKING frame no outcome is handed (R48). RECORD_EXPIRY
drops the record at the eighth frame without HEARD (R62): that it is the whole slot end at which that happens is the MODEL's
choice (log 16). Which messages are valid announcements, and with which record, OwnAnnouncementIsHeard states (R51). -/
def Obligations.SlotEndRecordsTheOutcome : Prop :=
  ∀ (s : State) (slot : Nat), s.running = true → s.tb.openSlot = some slot → slot < 16 →
    s.roster.entries.length = 16 →
    (s.tb.state = .tracking →
      ∃ t, exec (.slotEnd slot) s = .next t ∧
        t = { s with tb := t.tb, link := { s.link with readback := t.link.readback },
                     roster := { s.roster with entries := t.roster.entries } } ∧
        t.tb.openSlot = none ∧ t.tb.afn = s.tb.afn ∧
        (∀ j < 16, j ≠ slot → t.roster.entry j = s.roster.entry j) ∧
        (∀ a, ¬(slot = s.own ∧ s.link.tx = .idle) →
          s.link.rx = .complete → parseAnnouncement slot s.link.received = some a →
          t.roster.entry slot = { s.roster.entry slot with
            outcome := .heard, record := some ⟨a, s.tb.afn⟩,
            heardRun := min ((s.roster.entry slot).heardRun + 1) 15, missRun := 0 }) ∧
        (slot = s.own ∧ s.link.tx = .idle ∨
            ¬(s.link.rx = .complete ∧ (parseAnnouncement slot s.link.received).isSome = true) →
          t.roster.entry slot = { s.roster.entry slot with
            outcome := if s.link.rx = .waiting ∧ s.link.activity = false then .silent else .damaged
            record := if min ((s.roster.entry slot).missRun + 1) 255 = 8 then none
              else (s.roster.entry slot).record
            heardRun := 0
            missRun := min ((s.roster.entry slot).missRun + 1) 255 }) ∧
        t.link.readback = (if slot = s.own then (t.roster.entry slot).outcome else s.link.readback)) ∧
    (s.tb.state = .tracking → (s.roster.entry slot).missRun = 7 →
      slot = s.own ∧ s.link.tx = .idle ∨
        ¬(s.link.rx = .complete ∧ (parseAnnouncement slot s.link.received).isSome = true) →
      ∃ t, exec (.recordExpiry slot) s = .next t ∧
        t = { s with tb := t.tb, link := { s.link with readback := t.link.readback },
                     roster := { s.roster with entries := t.roster.entries } } ∧
        (∀ j < 16, j ≠ slot → t.roster.entry j = s.roster.entry j) ∧
        (t.roster.entry slot).record = none ∧ (t.roster.entry slot).missRun = 8 ∧
        (t.roster.entry slot).heardRun = 0) ∧
    (s.tb.state = .seeking →
      ∃ t, exec (.slotEnd slot) s = .next t ∧ t = { s with tb := t.tb } ∧ t.tb.openSlot = none)

/-- An announcement is the bytes of Table 13-1, with the CRC-16 of all before it at the end (R183, R184). A complete message is a
valid announcement, and yields this record, exactly when it has the length that its count of 0 to 3 calls for, the kind 0xA, the
slot's index as its sender, the state code of JOINING, MEMBER or PARKED, a ready list each of whose entries is newer than the one
before it, and the CRC-16 of all before its check field; shown counts only where SHOWN-PRESENT is set (R50, R51). A station that
sends an announcement and reads its own slot back, cell by cell, has the outcome HEARD with the record it sent, whatever the
receiver held before (R41, R42, R49 to R52, R54). -/
def Obligations.OwnAnnouncementIsHeard : Prop :=
  (∀ (a : Snapshot) (bytes : List Byte) (byte word : Nat → Nat) (c : Nat),
    bytes = a.bytes → c = a.heard.ready.length → c ≤ 3 → (∀ k, byte k = ((bytes[k]?).getD 0).toNat) →
    (∀ k, word k = 256 * byte k + byte (k + 1)) →
    bytes.length = 11 + 2 * c ∧ byte 0 = 16 * 0xA + a.sender.toNat ∧ word 1 = a.heard.afn.toNat ∧
    byte 3 = (match a.heard.state with
      | .joining => 1 | .member => 2 | .parked => 3) +
      (if a.heard.shown = none then 0 else 16) + (if a.readyFull = true then 32 else 0) +
      (if a.inputAlive = true then 64 else 0) + (if a.withdrawPending = true then 128 else 0) ∧
    word 4 = (a.heard.shown.getD 0).toNat ∧ byte 6 = c ∧
    (∀ k content, a.heard.ready[k]? = some content → word (7 + 2 * k) = content.toNat) ∧
    word (7 + 2 * c) = a.heard.heardMap.toNat ∧
    word (9 + 2 * c) = (crc16 lsbFirst (bytes.take (9 + 2 * c))).toNat) ∧
  (∀ (slot : Nat) (message : List Byte) (h : Announcement) (byte word : Nat → Nat) (c : Nat),
    (∀ k, byte k = ((message[k]?).getD 0).toNat) → (∀ k, word k = 256 * byte k + byte (k + 1)) → c = byte 6 →
    (parseAnnouncement slot message = some h ↔
      c ≤ 3 ∧ message.length = 11 + 2 * c ∧ byte 0 / 16 = 0xA ∧ byte 0 % 16 = slot ∧ word 1 = h.afn.toNat ∧
      byte 3 % 16 = (match h.state with
        | .joining => 1 | .member => 2 | .parked => 3) ∧
      (byte 3 / 16 % 2 = 0 → h.shown = none) ∧
      (byte 3 / 16 % 2 = 1 → ∃ content, h.shown = some content ∧ word 4 = content.toNat) ∧
      h.ready.length = c ∧ (∀ k content, h.ready[k]? = some content → word (7 + 2 * k) = content.toNat) ∧
      (∀ k, k + 1 < c → 1 ≤ (word (9 + 2 * k) + 65536 - word (7 + 2 * k)) % 65536 ∧
        (word (9 + 2 * k) + 65536 - word (7 + 2 * k)) % 65536 ≤ 32767) ∧
      word (7 + 2 * c) = h.heardMap.toNat ∧
      word (9 + 2 * c) = (crc16 lsbFirst (message.take (9 + 2 * c))).toNat)) ∧
  ∀ (a : Snapshot) (l : LinkInterface) (cells : Nat),
    a.heard.ready.length ≤ 3 → strictlyIncreasing a.heard.ready = true →
    a.bytes.length = 11 + 2 * a.heard.ready.length ∧
    (11 * a.bytes.length + 1 < cells →
      ((List.range cells).foldl (fun m k => m.receiveCell (messageCell a.bytes k)) l.resetReceiver).rx = .complete ∧
      ((List.range cells).foldl (fun m k => m.receiveCell (messageCell a.bytes k)) l.resetReceiver).received =
        a.bytes ∧
      ((List.range cells).foldl (fun m k => m.receiveCell (messageCell a.bytes k)) l.resetReceiver).heardRecord
        a.sender.toNat = some a.heard ∧
      ((List.range cells).foldl (fun m k => m.receiveCell (messageCell a.bytes k)) l.resetReceiver).outcome
        a.sender.toNat = .heard)

/-! ## The vote lines -/

/-- ROLL_CALL_CELL drives the own cell low exactly for a MEMBER with no withdrawal pending, and sets the claim-driven flag (R37,
R55), with which the station has claimed again after a withdrawal (R75; DEDUCED, log 30); VERDICT_LATCH latches the order and
drives the cell low exactly on VETO with the claim driven (R57). At every pixel clock VOTE is low exactly in the own roll-call
cell, once the drive has begun and while the claim is permitted, and in the verdict cell, on a latched VETO with the claim
driven, of a TRACKING station (R16, R37, R55, R57). That LN and PX are brought to (VL, own × CL + 1) and (VL + 1, 1), wherever
they stood, is the MODEL's choice (log 1). -/
def Obligations.ClaimAndVetoAreDrivenAsPermitted : Prop :=
  (∀ s : State, 1 ≤ s.tb.px → 1 ≤ s.settings.cl →
    (s.pins.vote = .low ↔ s.running = true ∧ s.tb.state = .tracking ∧ s.link.claimDriven = true ∧
      (s.tb.ln = s.settings.vl ∧ s.own * s.settings.cl + 1 ≤ s.tb.px ∧ s.tb.px ≤ (s.own + 1) * s.settings.cl ∧
          s.member.state = .member ∧ s.member.withdrawal = none ∨
        s.tb.ln = s.settings.vl + 1 ∧ s.tb.px ≤ s.settings.cl ∧ s.link.latched = .veto))) ∧
  ∀ s : State, s.running = true → 1 ≤ s.settings.vl → s.settings.vl + 1 ≤ s.settings.fl → 1 ≤ s.settings.cl →
    16 * s.settings.cl ≤ s.settings.ll →
    (∃ t, exec .rollCallCell s = .next t ∧
      t = { s with tb := t.tb, link := { s.link with claimDriven := t.link.claimDriven, claimOwed := t.link.claimOwed } } ∧
      t.tb = { s.tb with ln := s.settings.vl, px := s.own * s.settings.cl + 1,
                         phase := t.tb.phase, wrapMet := t.tb.wrapMet, stateBefore := t.tb.stateBefore } ∧
      (s.tb.state = .tracking ∧ s.member.state = .member ∧ s.member.withdrawal = none →
        t.link.claimDriven = true ∧ t.link.claimOwed = false ∧ t.pins.vote = .low) ∧
      (¬(s.tb.state = .tracking ∧ s.member.state = .member ∧ s.member.withdrawal = none) →
        t.link.claimDriven = s.link.claimDriven ∧ t.link.claimOwed = s.link.claimOwed ∧ t.pins.vote = .high)) ∧
    (∃ t, exec .verdictLatch s = .next t ∧
      t = { s with tb := t.tb, link := { s.link with latched := s.consent.order, latchTaken := true } } ∧
      t.tb = { s.tb with ln := s.settings.vl + 1, px := 1,
                         phase := t.tb.phase, wrapMet := t.tb.wrapMet, stateBefore := t.tb.stateBefore } ∧
      (t.pins.vote = .low ↔
        s.tb.state = .tracking ∧ s.consent.order = .veto ∧ s.link.claimDriven = true))

/-- The verdict sample of a TRACKING frame sets the verdict in every membership state, updates the reception-veto run of a
VOTING member, and makes RECEPTION pending at 6; in a SEEKING frame it carries no level (R58, R89, R90, R106). That LN and PX are
brought to the end of (VL + 1, m + 1), wherever they stood, is the MODEL's choice (log 1). -/
def Obligations.VerdictSampleSetsTheVerdict : Prop :=
  ∀ (s : State) (samples : Samples), s.running = true → 1 ≤ s.settings.vl →
    s.settings.vl + 1 ≤ s.settings.fl → s.settings.cl / 2 + 2 ≤ s.settings.ll →
    ∃ t, exec (.verdictSample samples) s = .next t ∧
      t.tb = { s.tb with ln := s.settings.vl + 1, px := s.settings.cl / 2 + 2,
                         phase := .ended, wrapMet := t.tb.wrapMet, stateBefore := t.tb.stateBefore,
                         stateAtEnd := t.tb.stateAtEnd } ∧
      (s.tb.state = .seeking → t = { s with tb := t.tb }) ∧
      (s.tb.state = .tracking →
        t = { s with tb := t.tb, link := { s.link with verdictLevel := some samples.level },
                     consent := { s.consent with
                       verdict := if samples.level = .high then .swap else .hold
                       receptionRun := t.consent.receptionRun },
                     member := { s.member with
                       verdictLevel := some samples.level
                       withdrawal := t.member.withdrawal } } ∧
        t.consent.receptionRun =
          (if s.consent.role = .voting then
            if s.consent.hold = .reception then min (s.consent.receptionRun + 1) 6 else 0
          else s.consent.receptionRun) ∧
        t.member.withdrawal =
          (if s.member.state = .member ∧ s.member.withdrawal = none ∧ t.consent.receptionRun = 6 then
            some .reception
          else s.member.withdrawal))

/-- At the roll-call close of a TRACKING frame R is the set of indexes below N whose cells are low, the claimed fields follow
it, and the five results are formed from the frame's outcomes and records (R56, R65, R67 to R72). After an own withdrawal
unheard-by-majority is not evaluated until the station has claimed again, also where previous R still holds the own index (R75,
R111): that the claim-driven flag tells that it has is DEDUCED (log 30). -/
def Obligations.RollCallCloseFormsRAndResults : Prop :=
  ∀ (s : State) (cells : List Samples), s.running = true → s.tb.state = .tracking → cells.length = 16 →
    s.roster.entries.length = 16 →
    ∃ t results, exec (.rollCallClose cells) s = .next t ∧
      t = { s with tb := t.tb, link := { s.link with rollCall := cells.map (fun c => some c.level) },
                   roster := t.roster, consent := t.consent, member := t.member } ∧
      t.roster.previousR = s.roster.previousR ∧
      (∀ i, i ∈ t.roster.r ↔ i < s.settings.n ∧ ∃ c, cells[i]? = some c ∧ c.level = .low) ∧
      t.roster.r.Pairwise (fun i j => i < j) ∧
      (∀ i < 16, t.roster.entry i =
        { s.roster.entry i with claimed := if i ∈ t.roster.r then .yes else .no }) ∧
      t.roster.results = some results ∧
      (results.heardAll = true ↔ ∀ i ∈ t.roster.r, (s.roster.entry i).outcome = .heard) ∧
      (results.settled = true ↔ ∀ i ∈ t.roster.r, 2 ≤ (s.roster.entry i).heardRun) ∧
      (results.unheard = true ↔ s.link.claimOwed = false ∧ s.own ∈ s.roster.previousR ∧
        ∃ P Q : List Nat,
          P = t.roster.r.filter (fun j => decide (j ≠ s.own ∧ (s.roster.entry j).outcome = .heard)) ∧
          Q = P.filter (fun j => match (s.roster.entry j).record with
            | some rec => !rec.heard.heardMap.getLsbD s.own
            | none => false) ∧
          P ≠ [] ∧ 2 * Q.length > P.length) ∧
      results.stepAgreement = (if s.own ∈ t.roster.r then 1 else 0) +
        (t.roster.r.filter (fun j => decide (j ≠ s.own ∧ (s.roster.entry j).outcome = .heard) &&
          match (s.roster.entry j).record with
          | some rec => decide (rec.heard.state = .member ∧ rec.heard.afn = rec.receiveAfn ∧
              rec.heard.shown = s.table.shownContent)
          | none => false)).length ∧
      (∀ j rec, j ∈ t.roster.r → (s.roster.entry j).outcome = .heard → (s.roster.entry j).record = some rec →
        (∀ k ∈ t.roster.r, k < j → (s.roster.entry k).outcome ≠ .heard) →
        results.leadAfn = some rec.heard.afn) ∧
      ((∀ j ∈ t.roster.r, (s.roster.entry j).outcome ≠ .heard) → results.leadAfn = none)

/-- What the Membership Controller does at a roll-call close: a JOINING station takes the lead AFN and counts empty roll calls
(R103); a MEMBER raises the first of CLAIM_LOST, UNHEARD and OUT_OF_STEP that holds (R104, R105), and then abstains (R78, R87);
in any other state the unheard run is 0; a SEEKING frame carries no results (R65, R95). -/
def Obligations.RollCallCloseDecidesMembership : Prop :=
  ∀ (s : State) (cells : List Samples), s.running = true →
    ∃ t, exec (.rollCallClose cells) s = .next t ∧ t.member.state = s.member.state ∧
      (s.tb.state = .seeking → t.roster = s.roster ∧ t.consent = s.consent ∧ t.link = s.link ∧
        t.tb.afn = s.tb.afn ∧ t.member.withdrawal = s.member.withdrawal ∧ t.member.emptyRun = s.member.emptyRun) ∧
      (s.member.state ≠ .member → t.member.unheardRun = 0) ∧
      (s.tb.state = .tracking → ∃ results, t.roster.results = some results ∧
        (s.member.state = .joining →
          t.tb.afn = results.leadAfn.getD s.tb.afn ∧
          t.member.emptyRun = (if t.roster.r = [] then min (s.member.emptyRun + 1) 2 else 0)) ∧
        (s.member.state ≠ .joining → t.tb.afn = s.tb.afn) ∧
        (s.member.state = .member →
          t.member.unheardRun = (if results.unheard = true then min (s.member.unheardRun + 1) 2 else 0) ∧
          (∀ cause, s.member.withdrawal = some cause → t.member.withdrawal = some cause) ∧
          (s.member.withdrawal = none → t.member.withdrawal =
            if (t.roster.entry s.own).claimed = .no then some .claimLost
            else if t.member.unheardRun = 2 then some .unheard
            else if s.own ∈ t.roster.r ∧ 2 * results.stepAgreement ≤ t.roster.r.length then some .outOfStep
            else none) ∧
          (s.link.latchTaken = false → t.member.withdrawal ≠ none →
            t.consent.role = .abstaining ∧ t.consent.order = .none ∧ t.consent.hold = .pendingWithdrawal ∧
            t.consent.target = none ∧ t.consent.targetReady = false)))

/-- A VOTING member consents exactly when it hears all of R, every other member of R is in step, and it holds the target READY;
its hold reason is the first of the four that fails, and any failure is a VETO. The base of the target is the own shown for a
VOTING member and the shown that all records of R carry in common for a JOINING station; there is no base, and no target, without
that or in any other role. This is what the Consent Unit takes at ROLL_CALL_CLOSE, unless a cause raised there makes the member
abstain (R78, R79, R82 to R84). -/
def Obligations.VotingMemberConsentsOrVetoes : Prop :=
  (∀ (c d : ConsentUnit) (own : Nat) (t : Roster) (heardAll : Bool) (table : SlotTable),
    (t.entry own).claimed = .yes → d = c.decideVote .member none own t heardAll table →
    d.role = .voting ∧ d.receptionRun = c.receptionRun ∧ d.verdict = c.verdict ∧
    (d.targetReady = true ↔ ∃ T, d.target = some T ∧ ∃ i ∈ table.readyQueue, table.contentOf i = some T) ∧
    (heardAll = false → d.target = none ∧ d.hold = .reception) ∧
    (heardAll = true →
      ¬(∀ j ∈ t.r, j = own ∨ ∃ rec, t.recordOf j = some rec ∧ rec.heard.state = .member ∧
        rec.heard.afn = rec.receiveAfn ∧ rec.heard.shown = table.shownContent) → d.hold = .step) ∧
    (heardAll = true →
      (∀ j ∈ t.r, j = own ∨ ∃ rec, t.recordOf j = some rec ∧ rec.heard.state = .member ∧
        rec.heard.afn = rec.receiveAfn ∧ rec.heard.shown = table.shownContent) →
      (d.target = none → d.hold = .noTarget) ∧
      (d.target ≠ none → d.targetReady = false → d.hold = .notReady) ∧
      (d.targetReady = true → d.hold = .none)) ∧
    (d.order = .veto ↔ d.hold ≠ .none) ∧
    d.target = (if heardAll = true ∧ t.r ≠ [] then targetOf (some table.shownContent) t.commonList else none)) ∧
  (∀ (c d : ConsentUnit) (withdrawal : Option WithdrawalCause) (own : Nat) (t : Roster) (heardAll : Bool)
    (table : SlotTable), withdrawal ≠ none ∨ (t.entry own).claimed ≠ .yes →
    d = c.decideVote .member withdrawal own t heardAll table →
    d = { c with role := .abstaining, order := .none, hold := .pendingWithdrawal, target := none, targetReady := false }) ∧
  (∀ (c d : ConsentUnit) (withdrawal : Option WithdrawalCause) (own : Nat) (t : Roster) (heardAll : Bool)
    (table : SlotTable), d = c.decideVote .joining withdrawal own t heardAll table →
    d = { c with role := .notVoting, order := .none, hold := .notVoting, target := d.target,
                 targetReady := d.targetReady } ∧
    (d.targetReady = true ↔ ∃ T, d.target = some T ∧ ∃ i ∈ table.readyQueue, table.contentOf i = some T) ∧
    (∀ common, heardAll = true → t.r ≠ [] → (∀ j ∈ t.r, t.shownOf j = common) →
      d.target = targetOf (some common) t.commonList) ∧
    (heardAll = false ∨ t.r = [] ∨ (∃ j ∈ t.r, ∃ k ∈ t.r, t.shownOf j ≠ t.shownOf k) → d.target = none)) ∧
  (∀ (c d : ConsentUnit) (state : MembershipState) (withdrawal : Option WithdrawalCause) (own : Nat) (t : Roster)
    (heardAll : Bool) (table : SlotTable), state ≠ .member → state ≠ .joining →
    d = c.decideVote state withdrawal own t heardAll table →
    d = { c with role := .notVoting, order := .none, hold := .notVoting, target := none, targetReady := false }) ∧
  (∀ (s : State) (cells : List Samples), s.running = true → s.tb.state = .tracking →
    ∃ t results, exec (.rollCallClose cells) s = .next t ∧ t.roster.results = some results ∧
      (t.member.withdrawal = s.member.withdrawal →
        t.consent = s.consent.decideVote s.member.state s.member.withdrawal s.own t.roster results.heardAll s.table))

/-- T is held READY by every member of R, is newer than the base, and is the oldest such content; T is absent exactly when there
is none (R80, R81). Stations with the same R and the same records form the same common list, and so the same T from one base
(R80, R94). -/
def Obligations.TargetIsTheOldestCommonContent : Prop :=
  ∀ (t : Roster) (j0 : Nat) (rest : List Nat) (base : Option Content), t.r = j0 :: rest →
    (t.readyOf j0).Pairwise (fun a b => newer b a = true) →
    (∀ T, targetOf (some base) t.commonList = some T →
      (∀ j ∈ t.r, T ∈ t.readyOf j) ∧ newerThan T base = true ∧
      ∀ c, (∀ j ∈ t.r, c ∈ t.readyOf j) → newerThan c base = true → c = T ∨ newer c T = true) ∧
    (targetOf (some base) t.commonList = none ↔
      ∀ c, (∀ j ∈ t.r, c ∈ t.readyOf j) → newerThan c base = false) ∧
    (∀ u : Roster, u.r = t.r → (∀ j ∈ t.r, u.readyOf j = t.readyOf j) →
      u.commonList = t.commonList ∧
      targetOf (some base) u.commonList = targetOf (some base) t.commonList)

/-- Two members of R whose step agreement is above half of R have the same shown content and the same AFN, given the talk
property and that each one's announcement, where the other hears it, carries its own shown and AFN (R39, R71, R94, R105). -/
def Obligations.StayingMembersAreInStep : Prop :=
  ∀ (ta tb : Roster) (a b : Nat) (shownA shownB : Option Content) (afnA afnB : Count16),
    ta.r = tb.r → ta.r.Nodup → a ≠ b → a ∈ ta.r → b ∈ ta.r →
    (∀ j recA recB, ta.heard j = true → tb.heard j = true → ta.recordOf j = some recA → tb.recordOf j = some recB →
      recA.heard = recB.heard) →
    (∀ j rec, ta.heard j = true → ta.recordOf j = some rec → rec.receiveAfn = afnA) →
    (∀ j rec, tb.heard j = true → tb.recordOf j = some rec → rec.receiveAfn = afnB) →
    (∀ rec, tb.heard a = true → tb.recordOf a = some rec → rec.heard.shown = shownA ∧ rec.heard.afn = afnA) →
    (∀ rec, ta.heard b = true → ta.recordOf b = some rec → rec.heard.shown = shownB ∧ rec.heard.afn = afnB) →
    ta.r.length < 2 * ta.stepAgreement a shownA → tb.r.length < 2 * tb.stepAgreement b shownB →
    shownA = shownB ∧ afnA = afnB

/-! ## The swap line -/

/-- A MEMBER with no withdrawal pending swaps to T exactly when it consented, T is present and the verdict is SWAP, and repeats
otherwise (R91, R92, R107, R124, R125). That LN and PX are brought to (SW, 1), wherever they stood, is the MODEL's choice
(log 1). -/
def Obligations.StayingMemberSwapsOrRepeats : Prop :=
  ∀ s : State, s.running = true → s.member.state = .member → s.member.withdrawal = none →
    1 ≤ s.settings.sw → s.settings.sw ≤ s.settings.fl → 1 ≤ s.settings.ll →
    s.table.Consistent → s.table.Ordered →
    ∃ t, exec .swapLine s = .next t ∧
      t = { s with tb := t.tb, table := t.table, report := t.report } ∧
      t.tb = { s.tb with ln := s.settings.sw, px := 1,
                         phase := t.tb.phase, wrapMet := t.tb.wrapMet, stateBefore := t.tb.stateBefore } ∧
      (∀ T i, s.consent.role = .voting → s.consent.hold = .none → s.consent.target = some T →
        s.consent.verdict = .swap → i ∈ s.table.readyQueue → s.table.contentOf i = some T →
        t.table.shown = some i ∧ (t.table.slot i).state = .shown ∧ t.table.contentOf i = some T ∧
        (∀ k, s.table.shown = some k → t.table.slot k = ⟨.free, none, 0, false⟩) ∧
        t.table.readyQueue = s.table.readyQueue.filter (fun k => match s.table.contentOf k with
          | some c => newer c T
          | none => false) ∧
        (∀ k ∈ s.table.readyQueue, k ≠ i → k ∉ t.table.readyQueue →
          t.table.slot k = ⟨.free, none, 0, false⟩) ∧
        t.table.skipped = s.table.skipped +
          BitVec.ofNat 16 (s.table.readyQueue.length - t.table.readyQueue.length - 1) ∧
        t.table.refused = s.table.refused ∧ t.table.defective = s.table.defective ∧
        t.table.fillingSlot = s.table.fillingSlot) ∧
      (¬(s.consent.role = .voting ∧ s.consent.hold = .none ∧ s.consent.target ≠ none ∧ s.consent.verdict = .swap) →
        t.table = s.table)

/-- A MEMBER with a withdrawal pending releases SHOWN and nothing READY, clears its runs, reports the cause, and goes to PARKED on
LEAVE or the park flag and to RESTING for three frames otherwise (R91, R96, R111, R126). From there unheard-by-majority is not
evaluated until the station claims again (R75; DEDUCED, log 30). -/
def Obligations.WithdrawalReleasesShown : Prop :=
  ∀ (s : State) (cause : WithdrawalCause), s.running = true → s.member.state = .member →
    s.member.withdrawal = some cause → s.report.queue.length < 4 →
    ∃ t, exec .swapLine s = .next t ∧
      t = { s with tb := t.tb, link := { s.link with tx := t.link.tx, claimOwed := true }, table := t.table,
                   consent := { s.consent with receptionRun := 0 }, member := t.member, report := t.report } ∧
      t.table.shown = none ∧ t.table.readyQueue = s.table.readyQueue ∧
      (∀ k, s.table.shown = some k → t.table.slots = s.table.slots.modify k (fun _ => ⟨.free, none, 0, false⟩)) ∧
      (s.table.shown = none → t.table = s.table) ∧
      t.table.skipped = s.table.skipped ∧
      t.member.withdrawal = none ∧ t.member.unheardRun = 0 ∧ t.member.park = false ∧
      (cause = .leave ∨ s.member.park = true → t.member.state = .parked ∧ t.member.rest = s.member.rest ∧
        (s.tb.state = .tracking → t.link.tx = s.link.tx)) ∧
      (¬(cause = .leave ∨ s.member.park = true) →
        t.member.state = .resting ∧ t.member.rest = 3 ∧ t.link.tx ≠ .sending) ∧
      (∃ more, t.report.queue =
        s.report.queue ++ [⟨.event s.tb.afn (.withdrew cause), s.report.lost⟩] ++ more)

/-- A JOINING station joins on the six join conditions, showing T, with the READY frames older than T freed and skipped and the
newer ones kept (R108, R124); it founds on two empty roll calls, releases stale frames at a failed join, and otherwise changes
nothing but its report (R107 to R110, R127). -/
def Obligations.JoinerJoinsFoundsOrWaits : Prop :=
  ∀ (s : State) (results : Results), s.running = true → s.member.state = .joining →
    s.roster.results = some results → s.table.Consistent → s.table.shown = none → s.report.queue.length < 4 →
    ∃ t, exec .swapLine s = .next t ∧
      t = { s with tb := t.tb, table := t.table, member := t.member, report := t.report } ∧
      (∀ T i, s.member.verdictLevel = some .high → s.roster.r ≠ [] → results.heardAll = true →
        results.settled = true → s.consent.target = some T → s.consent.targetReady = true →
        i ∈ s.table.readyQueue → s.table.contentOf i = some T → s.table.Ordered →
        t.member = { s.member with state := .member, emptyRun := 0, unheardRun := 0 } ∧
        t.table.shown = some i ∧ (t.table.slot i).state = .shown ∧ t.table.contentOf i = some T ∧ t.tb.afn = s.tb.afn ∧
        t.table.readyQueue = s.table.readyQueue.filter (fun k => match s.table.contentOf k with
          | some c => newer c T
          | none => false) ∧
        (∀ k ∈ t.table.readyQueue, t.table.slot k = s.table.slot k) ∧
        (∀ k ∈ s.table.readyQueue, k ≠ i → k ∉ t.table.readyQueue →
          t.table.slot k = ⟨.free, none, 0, false⟩) ∧
        t.table.skipped = s.table.skipped +
          BitVec.ofNat 16 (s.table.readyQueue.length - t.table.readyQueue.length - 1) ∧
        t.table.refused = s.table.refused ∧ t.table.defective = s.table.defective ∧
        t.table.fillingSlot = s.table.fillingSlot ∧
        ∃ more, t.report.queue = s.report.queue ++ [⟨.event s.tb.afn (.joined T), s.report.lost⟩] ++ more) ∧
      (s.member.emptyRun = 2 → s.roster.r = [] →
        t.member = { s.member with state := .member, emptyRun := 0, unheardRun := 0 } ∧
        t.table = s.table ∧ t.tb.afn = 0 ∧
        ∃ more, t.report.queue = s.report.queue ++ [⟨.event 0 .founded, s.report.lost⟩] ++ more) ∧
      (∀ T, s.member.verdictLevel = some .high → s.consent.target = some T → s.member.emptyRun ≠ 2 →
        ¬(s.roster.r ≠ [] ∧ results.heardAll = true ∧ results.settled = true ∧ s.consent.targetReady = true) →
        t.member = s.member ∧ t.tb.afn = s.tb.afn ∧ t.table.shown = none ∧
        t.table.readyQueue = s.table.readyQueue.filter (fun k => match s.table.contentOf k with
          | some c => !(newer T c || decide (c = T))
          | none => true) ∧
        (∀ k ∈ s.table.readyQueue, t.table.slot k =
          if k ∈ t.table.readyQueue then s.table.slot k else ⟨.free, none, 0, false⟩) ∧
        t.table.skipped = s.table.skipped +
          BitVec.ofNat 16 (s.table.readyQueue.length - t.table.readyQueue.length)) ∧
      (s.consent.target = none ∨ s.member.verdictLevel ≠ some .high → s.member.emptyRun ≠ 2 →
        t.member = s.member ∧ t.table = s.table ∧ t.tb.afn = s.tb.afn)

/-- The FRAME record formed at the swap line of a JOINING, MEMBER or PARKED station holds the values as they stand after the
frame's order, each count modulo 256 (R132, R178), and the outcome of its swap-line word: SWAPPED or REPEATED for a member that
stays, WITHDREW, JOINED, FOUNDED, or NONE (R92, R93, R107). In every-frame mode it is posted; in on-change mode it is posted when
its outcome, state, R or hold reason differs from the last queued FRAME, and otherwise no FRAME is (R179). In PARKED the swap line
has no other effect than the record, and in LISTEN and RESTING it has none and there is no FRAME record (R107, R178). That LN and
PX are brought to (SW, 1), wherever they stood, is the MODEL's choice (log 1). -/
def Obligations.FrameRecordSumsUpTheFrame : Prop :=
  (∀ s : State, s.running = true → s.member.state = .listen ∨ s.member.state = .resting ∨ s.member.state = .parked →
    ∃ t, exec .swapLine s = .next t ∧
      t = { s with tb := t.tb, report := t.report } ∧
      t.tb = { s.tb with ln := t.tb.ln, px := t.tb.px,
                         phase := t.tb.phase, wrapMet := t.tb.wrapMet, stateBefore := t.tb.stateBefore } ∧
      (s.member.state = .listen ∨ s.member.state = .resting → t.report = s.report)) ∧
  ∀ s : State, s.running = true → s.report.queue.length ≤ 2 →
    s.member.state = .joining ∨ s.member.state = .member ∨ s.member.state = .parked →
    ∃ t f, exec .swapLine s = .next t ∧
      (f.afn = t.tb.afn ∧ f.state = t.member.state ∧ f.shown = t.table.shownContent ∧
        f.readyCount = t.table.readyQueue.length ∧
        (∀ i < 16, f.r.getLsbD i = decide (i ∈ s.roster.r)) ∧
        f.hold = s.consent.hold ∧ f.role = s.mark.frameRole ∧
        f.refused.toNat = t.table.refused.toNat % 256 ∧ f.defective.toNat = t.table.defective.toNat % 256 ∧
        f.skipped.toNat = t.table.skipped.toNat % 256 ∧ f.underruns.toNat = s.out.underruns.toNat % 256 ∧
        f.strays.toNat = s.mark.strayCount.toNat % 256 ∧ f.strayInput.toNat = s.input.stray.toNat % 256) ∧
      (s.member.state = .member → s.member.withdrawal = none →
        (s.consent.role = .voting ∧ s.consent.hold = .none ∧ s.consent.target ≠ none ∧ s.consent.verdict = .swap →
          f.outcome = .swapped) ∧
        (¬(s.consent.role = .voting ∧ s.consent.hold = .none ∧ s.consent.target ≠ none ∧
            s.consent.verdict = .swap) → f.outcome = .repeated)) ∧
      (s.member.state = .member → s.member.withdrawal ≠ none → f.outcome = .withdrew) ∧
      (s.member.state = .joining →
        (∀ T results, s.member.verdictLevel = some .high → s.roster.r ≠ [] → s.roster.results = some results →
          results.heardAll = true → results.settled = true → s.consent.target = some T →
          s.consent.targetReady = true → f.outcome = .joined) ∧
        (s.roster.r = [] → s.member.emptyRun = 2 → f.outcome = .founded) ∧
        (s.member.emptyRun ≠ 2 →
          s.member.verdictLevel ≠ some .high ∨ s.roster.r = [] ∨ s.consent.target = none ∨
            s.consent.targetReady = false ∨ s.roster.results = none ∨
            (∃ results, s.roster.results = some results ∧ (results.heardAll = false ∨ results.settled = false)) →
          f.outcome = .none)) ∧
      (s.member.state = .parked → f.outcome = .none) ∧
      (s.settings.reportMode = .everyFrame ∨
          s.settings.reportMode = .onChange ∧ s.report.lastFrame ≠ some ⟨f.outcome, f.state, f.r, f.hold⟩ →
        (∃ lost, t.report.queue.getLast? = some ⟨.frame f, lost⟩) ∧
        t.report.lastFrame = some ⟨f.outcome, f.state, f.r, f.hold⟩) ∧
      (s.settings.reportMode = .onChange → s.report.lastFrame = some ⟨f.outcome, f.state, f.r, f.hold⟩ →
        t.report.lastFrame = s.report.lastFrame ∧
        ∀ g lost, ⟨.frame g, lost⟩ ∈ t.report.queue ↔ ⟨.frame g, lost⟩ ∈ s.report.queue)

/-! ## The panel -/

/-- The column due at an image line start (column 0) and at UNDERRUN: when a slot is latched, the line is held ACTIVE and the
column is not resident, the line underruns, is counted once, has its claims withdrawn and shows the fill colour; otherwise nothing
but the position changes (R14, R155, R162, R163). That LN and PX are
brought to the column's pixel, wherever they stood, is the MODEL's choice (log 1). -/
def Obligations.WindowColumnShowsOrUnderruns : Prop :=
  ∀ (s : State) (c : Instr) (line p : Nat), s.running = true → s.settings.Fits → s.out.places.length = 3 →
    line < s.settings.wh → p < s.settings.ww →
    c = .imageLineStart line ∧ p = 0 ∨ c = .underrun line p ∧ s.tb.openLine = some line →
    ∃ t, exec c s = .next t ∧
      t = { s with tb := t.tb,
                   out := { s.out with places := t.out.places, urgent := t.out.urgent, underruns := t.out.underruns },
                   transit := { s.transit with readerItems := t.transit.readerItems } } ∧
      t.tb = { s.tb with ln := s.settings.va0 + s.settings.wy + line, px := s.settings.ha0 + s.settings.wx + p,
                         openLine := some line,
                         phase := t.tb.phase, wrapMet := t.tb.wrapMet, stateBefore := t.tb.stateBefore } ∧
      (∀ count bytes, s.out.latched ≠ none → s.out.places[line % 3]? = some (.holds line count .active bytes) →
        count ≤ (3 * p + 2) / 64 →
        t.out.places = s.out.places.set (line % 3) (.holds line count .underrun bytes) ∧
        t.out.underruns = s.out.underruns + 1 ∧
        t.transit.readerItems = s.transit.readerItems ++ [.withdraw line] ∧
        t.pins.pdat = s.settings.fill) ∧
      (¬(s.out.latched ≠ none ∧ ∃ count bytes, s.out.places[line % 3]? = some (.holds line count .active bytes) ∧
          count ≤ (3 * p + 2) / 64) →
        t.out = s.out ∧ t.transit = s.transit)

/-- The uncut end of an image line marks it ENDED, withdraws its claims, moves the current line on, and places the line two ahead,
when there is one and a slot is latched (R158, R161). That LN and PX are
brought to the end of the line's last window pixel, wherever they stood, is the MODEL's choice (log 1). -/
def Obligations.ImageLineEndPlacesTheLineTwoAhead : Prop :=
  ∀ (s : State) (line : Nat), s.running = true → s.settings.Fits → s.out.places.length = 3 →
    line < s.settings.wh → s.tb.openLine = some line →
    ∃ t, exec (.imageLineEnd line) s = .next t ∧
      t = { s with tb := t.tb,
                   out := { s.out with places := t.out.places, nextLine := t.out.nextLine, currentLine := line + 1,
                                       urgent := t.out.urgent },
                   transit := { s.transit with readerItems := t.transit.readerItems } } ∧
      t.tb = { s.tb with ln := s.settings.va0 + s.settings.wy + line,
                         px := s.settings.ha0 + s.settings.wx + s.settings.ww - 1, openLine := none,
                         phase := .ended, wrapMet := t.tb.wrapMet, stateBefore := t.tb.stateBefore,
                         stateAtEnd := t.tb.stateAtEnd } ∧
      (∀ slot, s.out.latched = some slot → s.out.nextLine = line + 2 → line + 2 < s.settings.wh →
        t.out.nextLine = line + 3 ∧ t.out.place (line + 2) = .holds (line + 2) 0 .active [] ∧
        t.transit.readerItems = s.transit.readerItems ++ [.withdraw line, .item (.claims slot (line + 2))] ∧
        (∀ count mark bytes, s.out.place line = .holds line count mark bytes →
          t.out.place line = .holds line count .ended bytes) ∧
        t.out.place (line + 1) = s.out.place (line + 1)) ∧
      (s.out.latched = none ∨ s.settings.wh ≤ s.out.nextLine →
        t.out.nextLine = s.out.nextLine ∧
        t.transit.readerItems = s.transit.readerItems ++ [.withdraw line] ∧
        (∀ count mark bytes, s.out.place line = .holds line count mark bytes →
          t.out.place line = .holds line count .ended bytes) ∧
        (∀ j, j % 3 ≠ line % 3 → t.out.place j = s.out.place j))

/-- A read burst, the next on its way, is kept exactly when its slot is the latched one, its line is held ACTIVE and its index
is the count; and urgent is set exactly on the condition of R160 (R159, R160). -/
def Obligations.ReaderCompletionIsKeptOrDiscarded : Prop :=
  ∀ (s : State) (d : ReadData) (rest : List ReadData), s.running = true → s.out.places.length = 3 →
    s.transit.reads = d :: rest →
    ∃ t, exec (.readerCompletion d) s = .next t ∧
      t = { s with out := { s.out with places := t.out.places, urgent := t.out.urgent },
                   transit := { s.transit with reads := rest } } ∧
      (∀ bytes, s.out.latched = some d.slot → s.out.place d.line = .holds d.line d.burst .active bytes →
        t.out.places = s.out.places.set (d.line % 3) (.holds d.line (d.burst + 1) .active (bytes ++ d.data))) ∧
      (¬(s.out.latched = some d.slot ∧ ∃ bytes, s.out.place d.line = .holds d.line d.burst .active bytes) →
        t.out.places = s.out.places) ∧
      (t.out.urgent = true ↔ s.out.latched ≠ none ∧ s.out.currentLine < s.settings.wh ∧
        ((∃ count bytes, t.out.place s.out.currentLine = .holds s.out.currentLine count .active bytes ∧
            count ≠ s.settings.bursts) ∨
          s.out.currentLine + 1 < s.settings.wh ∧
            ¬∃ mark bytes, t.out.place (s.out.currentLine + 1) =
              .holds (s.out.currentLine + 1) s.settings.bursts mark bytes))

/-- PDAT by the table of R163 with the clamp of R164, and DE, HS, VS and FLIP by their flags and polarities
(R12, R13, R14, R163 to R166). A held part, in CONFIG or HALTED, shows nothing: PDAT is 0, DE, HS, VS and FLIP are low at either
polarity (R156), and READY is low (R131). That PDAT carries R in its high byte, then G, then B, is the MODEL's choice (log 33). -/
def Obligations.PixelColourFollowsTheTable : Prop :=
  (∀ s : State, s.running = false →
    s.pins.pdat = 0 ∧ s.pins.de = .low ∧ s.pins.hs = .low ∧ s.pins.vs = .low ∧ s.pins.flip = .low ∧
    s.pins.ready = .low) ∧
  ∀ s : State, s.running = true → s.settings.Fits →
    (¬(s.settings.va0 ≤ s.tb.ln ∧ s.tb.ln ≤ s.settings.va1 ∧ s.settings.ha0 ≤ s.tb.px ∧ s.tb.px ≤ s.settings.ha1) →
      s.pins.pdat = 0) ∧
    (s.settings.va0 ≤ s.tb.ln ∧ s.tb.ln ≤ s.settings.va1 ∧ s.settings.ha0 ≤ s.tb.px ∧ s.tb.px ≤ s.settings.ha1 →
      (¬∃ j p, j < s.settings.wh ∧ p < s.settings.ww ∧ s.tb.ln = s.settings.va0 + s.settings.wy + j ∧
        s.tb.px = s.settings.ha0 + s.settings.wx + p) → s.pins.pdat = s.settings.border) ∧
    (∀ j p, j < s.settings.wh → p < s.settings.ww → s.tb.ln = s.settings.va0 + s.settings.wy + j →
      s.tb.px = s.settings.ha0 + s.settings.wx + p →
      (s.out.latched = none → s.pins.pdat = s.settings.fill) ∧
      (∀ count bytes, s.out.place j = .holds j count .underrun bytes → s.pins.pdat = s.settings.fill) ∧
      (∀ slot count mark bytes r g b, s.out.latched = some slot → s.out.place j = .holds j count mark bytes →
        mark ≠ .underrun → (3 * p + 2) / 64 < count → bytes[3 * p]? = some r → bytes[3 * p + 1]? = some g →
        bytes[3 * p + 2]? = some b →
        s.pins.pdat =
          (if r < s.settings.clampLow then s.settings.clampLow
            else if s.settings.clampHigh < r then s.settings.clampHigh else r) ++
          (if g < s.settings.clampLow then s.settings.clampLow
            else if s.settings.clampHigh < g then s.settings.clampHigh else g) ++
          (if b < s.settings.clampLow then s.settings.clampLow
            else if s.settings.clampHigh < b then s.settings.clampHigh else b))) ∧
    (s.pins.de = .high ↔
      (s.settings.deHigh = true ↔ s.settings.va0 ≤ s.tb.ln ∧ s.tb.ln ≤ s.settings.va1 ∧
        s.settings.ha0 ≤ s.tb.px ∧ s.tb.px ≤ s.settings.ha1)) ∧
    (s.pins.hs = .high ↔
      (s.settings.hsHigh = true ↔ s.settings.hs0 ≤ s.tb.px ∧ s.tb.px ≤ s.settings.hs1)) ∧
    (s.pins.vs = .high ↔
      (s.settings.vsHigh = true ↔ s.settings.vs0 ≤ s.tb.ln ∧ s.tb.ln ≤ s.settings.vs1)) ∧
    (s.pins.flip = .high ↔ (s.settings.flipHigh = true ↔ s.out.flip = true ∧ s.tb.ln = 1))

/-! ## The frame input port -/

/-- The order of content numbers, of an optional content number, and "strictly increasing" (R1). -/
def Obligations.ContentNumbersCompareInSerialOrder : Prop :=
  (∀ a b : Content, newer a b = true ↔
    1 ≤ (a.toNat + 65536 - b.toNat) % 65536 ∧ (a.toNat + 65536 - b.toNat) % 65536 ≤ 32767) ∧
  (∀ a b : Content, newer a b = true → newer b a = false) ∧
  (∀ a : Content, newer a a = false) ∧
  (∀ a b : Content, (a.toNat + 65536 - b.toNat) % 65536 = 32768 → newer a b = false ∧ newer b a = false) ∧
  (∀ a b : Content, a ≠ b → (a.toNat + 65536 - b.toNat) % 65536 ≠ 32768 → newer a b = true ∨ newer b a = true) ∧
  (∀ a : Content, newerThan a none = true) ∧ (∀ a b : Content, newerThan a (some b) = newer a b) ∧
  (∀ l : List Content, strictlyIncreasing l = true ↔
    ∀ (i : Nat) (a b : Content), l[i]? = some a → l[i + 1]? = some b → newer b a = true)

/-- A FRAME_OPEN abandons a frame under reception, sends an arrival, and asks for admission: admitted to the lowest FREE slot,
or refused and counted; and READY is high exactly when there is room (R119, R123, R131, R132, R135, R142). -/
def Obligations.FrameOpenIsAdmittedOrRefused : Prop :=
  ∀ (s : State) (content : Content), s.running = true → s.table.Consistent → s.InputLegal →
    ∃ t, exec (.frameOpen content) s = .next t ∧
      t = { s with table := { s.table with slots := t.table.slots, refused := t.table.refused,
                                           defective := t.table.defective },
                   input := t.input,
                   transit := { s.transit with toPclk := s.transit.toPclk ++ [.arrival],
                                               toMemory := t.transit.toMemory } } ∧
      t.input.window = true ∧ t.input.stray = s.input.stray ∧
      (s.input.state = .filling → t.table.defective = s.table.defective + 1 ∧
        t.transit.toMemory = s.transit.toMemory ++ [.discard s.input.slot] ∧
        ∀ b ∈ t.input.buffers, b.state = .empty) ∧
      (s.input.state ≠ .filling → t.table.defective = s.table.defective ∧
        t.transit.toMemory = s.transit.toMemory ∧ t.input.buffers = s.input.buffers) ∧
      (∀ room newest : Prop,
        (room ↔ s.table.readyQueue.length ≤ 2 ∧ (s.input.state = .filling ∨
          (∃ i < 4, (s.table.slot i).state = .free) ∧ ∀ i < 4, (s.table.slot i).state ≠ .filling)) →
        (newest ↔ (∀ c, s.table.shownContent = some c → newer content c = true) ∧
          ∀ c ∈ s.table.readyList, newer content c = true) →
        (room ∧ newest → t.input.state = .filling ∧ t.input.slot < 4 ∧ t.input.expectedLine = 0 ∧
          t.input.pixelCount = none ∧ t.table.refused = s.table.refused ∧
          ((s.table.slot t.input.slot).state = .free ∨
            s.input.state = .filling ∧ t.input.slot = s.input.slot) ∧
          (∀ i < 4, i < t.input.slot → (s.table.slot i).state ≠ .free ∧
            (s.input.state = .filling → i ≠ s.input.slot)) ∧
          t.table.slot t.input.slot = ⟨.filling, some content, 0, false⟩ ∧
          (∀ i < 4, i ≠ t.input.slot → t.table.slot i =
            if s.input.state = .filling ∧ i = s.input.slot then ⟨.free, none, 0, false⟩ else s.table.slot i)) ∧
        (¬(room ∧ newest) → t.input.state = .draining ∧ t.table.refused = s.table.refused + 1 ∧
          ∀ i < 4, t.table.slot i =
            if s.input.state = .filling ∧ i = s.input.slot then ⟨.free, none, 0, false⟩ else s.table.slot i)) ∧
      (s.pins.ready = .high ↔ s.table.readyQueue.length ≤ 2 ∧ (∃ i < 4, (s.table.slot i).state = .free) ∧
        ∀ i < 4, (s.table.slot i).state ≠ .filling)

/-- The grammar of FILLING: a line opens in the lowest EMPTY buffer, its pixel words are stored, the WWth completes it and hands
it to the writer, and the FRAME_CLOSE that carries WH after WH lines is accepted (R121, R137, R138, R143). Where the last line has
been reported, the frame completes there: READY at the end of the queue, or, where its content is not newer than what is held,
freed and counted as skipped (R122). That the READY record keeps its lines written and its closing flag is the MODEL's choice
(log 25). -/
def Obligations.LineGrammarAcceptsTheFrame : Prop :=
  ∀ s : State, s.running = true → s.input.state = .filling →
    (∀ (index : BitVec 16) (b : Nat), s.input.pixelCount = none → index.toNat = s.input.expectedLine →
      index.toNat < s.settings.wh → (∃ x, s.input.buffers[b]? = some x ∧ x.state = .empty) →
      (∀ k < b, ∀ x, s.input.buffers[k]? = some x → x.state ≠ .empty) →
      exec (.lineOpen index) s = .next { s with input := { s.input with
        pixelCount := some 0, window := false,
        buffers := s.input.buffers.set b ⟨.receiving, s.input.slot, index.toNat, 0, []⟩ } }) ∧
    (∀ (colour : Colour) (count : Nat), s.input.pixelCount = some count → count + 1 ≠ s.settings.ww →
      exec (.pixelWord colour) s = .next { s with input := { s.input with
        pixelCount := some (count + 1), window := false,
        buffers := s.input.buffers.map (fun b =>
          if b.state = .receiving then { b with colours := b.colours ++ [colour] } else b) } }) ∧
    (∀ (colour : Colour) (count : Nat), s.input.pixelCount = some count → count + 1 = s.settings.ww →
      exec (.pixelWord colour) s = .next { s with
        input := { s.input with
          pixelCount := none, window := false, expectedLine := s.input.expectedLine + 1,
          buffers := s.input.buffers.map (fun b =>
            if b.state = .receiving then
              { b with state := .waiting, toGrant := s.settings.bursts, colours := b.colours ++ [colour] }
            else b) },
        transit := { s.transit with
          toMemory := s.transit.toMemory ++ [.writerLine s.input.slot s.input.expectedLine] } }) ∧
    (∀ (count : BitVec 16) (c : Content) (k : Nat), s.input.pixelCount = none →
      s.input.expectedLine = s.settings.wh → count.toNat = s.settings.wh → s.table.fillingSlot = some k →
      s.table.contentOf k = some c →
      ∃ t, exec (.frameClose count) s = .next t ∧
        t = { s with input := { s.input with state := .idle, window := false }, table := t.table } ∧
        ((s.table.slot k).linesWritten ≠ s.settings.wh →
          t.table = { s.table with slots := s.table.slots.modify k (fun x => { x with closing := true }) }) ∧
        ((s.table.slot k).linesWritten = s.settings.wh → s.table.newerThanHeld c = true →
          t.table = { s.table with
            slots := s.table.slots.modify k (fun x => { x with state := .ready, closing := true }),
            readyQueue := s.table.readyQueue ++ [k] }) ∧
        ((s.table.slot k).linesWritten = s.settings.wh → s.table.newerThanHeld c = false →
          t.table = { s.table with
            slots := s.table.slots.modify k (fun _ => ⟨.free, none, 0, false⟩),
            skipped := s.table.skipped + 1 }))

/-- Every word that the grammar of FILLING does not accept discards the frame once and drains the rest of it
(R123, R139, R144, R145). -/
def Obligations.DefectsDiscardTheFrame : Prop :=
  ∀ (s : State) (c : Instr) (k : Nat), s.running = true → s.input.state = .filling → s.table.fillingSlot = some k →
    (∃ colour, c = .pixelWord colour ∧ s.input.pixelCount = none) ∨
    (∃ j, c = .lineOpen j ∧ (s.input.pixelCount ≠ none ∨ j.toNat ≠ s.input.expectedLine ∨
      s.settings.wh ≤ j.toNat ∨ ∀ b ∈ s.input.buffers, b.state ≠ .empty)) ∨
    (∃ n, c = .frameClose n ∧ (s.input.pixelCount ≠ none ∨ s.input.expectedLine ≠ s.settings.wh ∨
      n.toNat ≠ s.settings.wh)) ∨
    (∃ payload, c = .frameFlags payload ∧ s.input.window = false) ∨
    (∃ word, c = .damagedControlWord word ∧ c.wellFormed = true) →
    ∃ t, exec c s = .next t ∧
      t = { s with
        table := { s.table with
          slots := s.table.slots.modify k (fun _ => ⟨.free, none, 0, false⟩),
          defective := s.table.defective + 1 },
        input := { s.input with state := .draining, pixelCount := none, window := false, buffers := t.input.buffers },
        transit := { s.transit with toMemory := s.transit.toMemory ++ [.discard k] } } ∧
      t.input.buffers.length = s.input.buffers.length ∧ ∀ b ∈ t.input.buffers, b.state = .empty

/-- In IDLE every word but FRAME_OPEN is a stray word; in DRAINING a FRAME_CLOSE ends the draining and every other word but
FRAME_OPEN and flags with the window open is ignored; a FRAME_FLAGS that directly follows a FRAME_OPEN passes LEAVE or REJOIN, and
shuts the window (R136, R140, R141, R142). -/
def Obligations.StrayDrainedAndFlagWords : Prop :=
  ∀ (s : State) (c : Instr), s.running = true →
    (∃ colour, c = .pixelWord colour) ∨ (∃ j, c = .lineOpen j) ∨ (∃ n, c = .frameClose n) ∨
    (∃ payload, c = .frameFlags payload) ∨ (∃ word, c = .damagedControlWord word ∧ c.wellFormed = true) →
    (s.input.state = .idle →
      exec c s = .next { s with input := { s.input with stray := s.input.stray + 1, window := false } }) ∧
    (s.input.state = .draining → ∀ n, c = .frameClose n →
      exec c s = .next { s with input := { s.input with state := .idle, window := false } }) ∧
    (s.input.state = .draining → (∀ n, c ≠ .frameClose n) →
      (∀ payload, c = .frameFlags payload → s.input.window = false) →
      exec c s = .next { s with input := { s.input with window := false } }) ∧
    (s.input.state ≠ .idle → s.input.window = true → ∀ payload, c = .frameFlags payload →
      exec c s = .next { s with
        input := { s.input with window := false },
        transit := { s.transit with toPclk := s.transit.toPclk ++
          (if payload.getLsbD 0 = true ∧ payload.getLsbD 1 = false then [.leave]
            else if payload.getLsbD 0 = false ∧ payload.getLsbD 1 = true then [.rejoin]
            else []) } })

/-- A control word has its type in bits 23 to 20, its payload in bits 19 to 4 and its protection value in bits 3 to 0, and that
value is the register of R185 over bits 23 to 4, from 0 with 0x3 fed back (Table 13-2). The types 0x1 to 0x4 are FRAME_OPEN,
FRAME_FLAGS, LINE_OPEN and FRAME_CLOSE with the payload as their operand; a word of any other type, or of another protection
value, is damaged, and a word with ICTL low is a pixel (R133). So every command of the port reads back from its word, and a
control word with one bit inverted is taken as damaged (R133, R139, R185). A word on the pins runs as the command that its bits
spell, and DAMAGED_CONTROL_WORD puts the word it carries through the same checker (R133, R185): that one command carries every
word is the MODEL's choice (log 20), and so is that a fetched word of 24 bits is read as a control word (log 19). -/
def Obligations.ControlWordsReadBack : Prop :=
  (∀ register : BitVec 24 → BitVec 4,
    (∀ word, register word = (List.range 20).foldl (fun (value : BitVec 4) (k : Nat) =>
      if value.getLsbD 3 = word.getLsbD (23 - k) then value <<< 1 else (value <<< 1) ^^^ 0x3#4) 0#4) →
    (∀ (kind : BitVec 4) (payload : BitVec 16) (word : BitVec 24), word = controlWord kind payload →
      word.extractLsb' 20 4 = kind ∧ word.extractLsb' 4 16 = payload ∧ word.extractLsb' 0 4 = register word) ∧
    (∀ payload : BitVec 16,
      encodeInputWord (.frameOpen payload) = some (true, controlWord 0x1#4 payload) ∧
      encodeInputWord (.frameFlags payload) = some (true, controlWord 0x2#4 payload) ∧
      encodeInputWord (.lineOpen payload) = some (true, controlWord 0x3#4 payload) ∧
      encodeInputWord (.frameClose payload) = some (true, controlWord 0x4#4 payload)) ∧
    (∀ (word : BitVec 24) (kind : BitVec 4) (payload : BitVec 16), kind = word.extractLsb' 20 4 →
      payload = word.extractLsb' 4 16 →
      (word.extractLsb' 0 4 ≠ register word → decodeInputWord true word = .damagedControlWord word) ∧
      (word.extractLsb' 0 4 = register word →
        (kind = 0x1#4 → decodeInputWord true word = .frameOpen payload) ∧
        (kind = 0x2#4 → decodeInputWord true word = .frameFlags payload) ∧
        (kind = 0x3#4 → decodeInputWord true word = .lineOpen payload) ∧
        (kind = 0x4#4 → decodeInputWord true word = .frameClose payload) ∧
        (kind = 0#4 ∨ 5 ≤ kind.toNat → decodeInputWord true word = .damagedControlWord word)))) ∧
  (∀ word : BitVec 24, decodeInputWord false word = .pixelWord word ∧
    encodeInputWord (.pixelWord word) = some (false, word)) ∧
  (∀ (c : Instr) (ictl : Bool) (idat : BitVec 24), c.wellFormed = true → encodeInputWord c = some (ictl, idat) →
    decodeInputWord ictl idat = c) ∧
  (∀ (kind : BitVec 4) (payload : BitVec 16) (k : Nat), k < 24 →
    decodeInputWord true (controlWord kind payload ^^^ (1#24 <<< k)) =
      .damagedControlWord (controlWord kind payload ^^^ (1#24 <<< k))) ∧
  (∀ (s : State) (ictl : Bool) (idat : BitVec 24),
    step (s.withInputWord ictl idat) = exec (decodeInputWord ictl idat) s) ∧
  (∀ (s : State) (word : BitVec 24), exec (.damagedControlWord word) s = exec (decodeInputWord true word) s) ∧
  (∀ (s : State) (word : BitVec 24), decodeTableWord 24 word.toNat = some (decodeInputWord true word) ∧
    step (s.withFetchWord 24 word.toNat) = exec (decodeInputWord true word) s)

/-! ## The application's requests -/

/-- The next report on its way arrives, and is no longer on its way (R142). An arrival sets the input-alive latch and clears the
silence count (R46, R102); LEAVE and REJOIN act by membership state (R87, R104, R113 to R115). Their events are posted whatever
the queue holds: to a full queue they are lost, and counted (R177). Each carries the AFN that the Timebase holds when it is posted
(R180): that this is so ahead of the frame start of the same pixel clock too is the MODEL's choice (log 31). -/
def Obligations.RequestsActByMembershipState : Prop :=
  ∀ (s : State) (rest : List InputReport), s.running = true →
    (s.transit.toPclk = .arrival :: rest → exec .frameOpenArrival s = .next { s with
      transit := { s.transit with toPclk := rest },
      link := { s.link with inputAlive := true },
      member := { s.member with inputSilence := 0 } }) ∧
    (s.transit.toPclk = .leave :: rest → ∃ t, exec .leave s = .next t ∧
      t = { s with transit := { s.transit with toPclk := rest },
                   member := t.member, consent := t.consent, report := t.report } ∧
      (s.member.state = .member → s.member.withdrawal = none →
        t.member = { s.member with withdrawal := some .leave } ∧ t.report = s.report ∧
        (s.consent.role = .voting → s.link.latchTaken = false →
          t.consent = { s.consent with role := .abstaining, order := .none, hold := .pendingWithdrawal,
                                       target := none, targetReady := false }) ∧
        (s.consent.role ≠ .voting ∨ s.link.latchTaken = true → t.consent = s.consent)) ∧
      (∀ cause, s.member.state = .member → s.member.withdrawal = some cause →
        t.member = (if cause = .leave then s.member else { s.member with park := true }) ∧
        t.report = s.report ∧ t.consent = s.consent) ∧
      (s.member.state = .listen ∨ s.member.state = .joining ∨ s.member.state = .resting →
        t.member = { s.member with
          state := .parked
          emptyRun := if s.member.state = .joining then 0 else s.member.emptyRun
          rest := if s.member.state = .resting then 0 else s.member.rest } ∧
        (s.report.queue.length < 4 → t.report = { s.report with
          queue := s.report.queue ++ [⟨.event s.tb.afn (.parked s.member.state), s.report.lost⟩], lost := 0 }) ∧
        (4 ≤ s.report.queue.length → t.report = { s.report with lost := s.report.lost + 1 }) ∧
        t.consent = s.consent) ∧
      (s.member.state = .parked → t.member = { s.member with rejoin := false } ∧ t.report = s.report ∧
        t.consent = s.consent)) ∧
    (s.transit.toPclk = .rejoin :: rest → ∃ t, exec .rejoin s = .next t ∧
      t = { s with transit := { s.transit with toPclk := rest }, member := t.member, report := t.report } ∧
      (s.member.state = .parked → t.member = { s.member with rejoin := true } ∧ t.report = s.report) ∧
      (s.member.state = .listen ∨ s.member.state = .joining ∨ s.member.state = .member ∨
          s.member.state = .resting →
        t.member = s.member ∧
        (s.report.queue.length < 4 → t.report = { s.report with
          queue := s.report.queue ++ [⟨.event s.tb.afn (.rejoinIgnored s.member.state), s.report.lost⟩], lost := 0 }) ∧
        (4 ≤ s.report.queue.length → t.report = { s.report with lost := s.report.lost + 1 })))

/-! ## Frame memory -/

/-- A claim, the next of its kind on its way, joins its lane while a burst is in flight, and the first claim on an idle bus is
granted at once (R149, R150); a writer claim takes its bytes from the WAITING buffer of its line, and the grant of its only burst,
for a line of one, leaves no claim and frees the buffer at once (R143). A frame start that arrives on an idle bus finds no reader
claim to remove, and nothing to grant (R149). A writer claim of a frame whose discard is on its way has no buffer any more (R145):
that the bytes granted are free values is the MODEL's choice (log 10). -/
def Obligations.ClaimsJoinTheirLanes : Prop :=
  ∀ (s : State) (slot line : Nat), s.running = true →
    (∀ b, s.port.inFlight = some b →
      (s.transit.refreshes ≠ 0 → exec .refreshClaim s = .next { s with
        transit := { s.transit with refreshes := s.transit.refreshes - 1 },
        port := { s.port with refresh := .present (decide (s.port.refresh ≠ .absent)) } }) ∧
      (∀ rest, s.transit.toMemory = .writerLine slot line :: rest →
        exec (.writerClaim slot line) s = .next { s with
          transit := { s.transit with toMemory := rest },
          port := { s.port with writers := s.port.writers ++ [⟨slot, line, 0⟩] } }) ∧
      (∀ rest, s.transit.readerItems = .item (.claims slot line) :: rest →
        exec (.readerClaim (.claims slot line)) s = .next { s with
          transit := { s.transit with readerItems := rest },
          port := { s.port with readers := s.port.readers ++
            (List.range s.settings.bursts).map (fun b => ⟨slot, line, b⟩) } }) ∧
      (∀ rest, s.transit.readerItems = .item .frameStart :: rest →
        exec (.readerClaim .frameStart) s = .next { s with
          transit := { s.transit with readerItems := rest },
          port := { s.port with readers := [] } })) ∧
    (s.port = ⟨.absent, [], [], none⟩ →
      (∀ rest, s.transit.readerItems = .item .frameStart :: rest →
        exec (.readerClaim .frameStart) s = .next { s with transit := { s.transit with readerItems := rest } }) ∧
      (s.transit.refreshes ≠ 0 → exec .refreshClaim s = .next { s with
        transit := { s.transit with refreshes := s.transit.refreshes - 1 },
        port := ⟨.absent, [], [], some .refresh⟩ }) ∧
      (∀ rest, s.transit.readerItems = .item (.claims slot line) :: rest → 1 ≤ s.settings.bursts →
        exec (.readerClaim (.claims slot line)) s = .next { s with
          transit := { s.transit with readerItems := rest },
          port := ⟨.absent, (List.range (s.settings.bursts - 1)).map (fun b => ⟨slot, line, b + 1⟩), [],
            some (.reader slot line 0)⟩ }) ∧
      (∀ b x rest, s.transit.toMemory = .writerLine slot line :: rest → .discard slot ∉ rest →
        s.input.buffers[b]? = some x → x.state = .waiting ∧ x.slot = slot ∧ x.line = line →
        (∀ k < b, ∀ y, s.input.buffers[k]? = some y → ¬(y.state = .waiting ∧ y.slot = slot ∧ y.line = line)) →
        (2 ≤ s.settings.bursts →
          exec (.writerClaim slot line) s = .next { s with
            transit := { s.transit with toMemory := rest },
            port := ⟨.absent, [], [⟨slot, line, 1⟩], some (.writer slot line 0 (burstBytes x.colours 0) false)⟩,
            input := { s.input with buffers := s.input.buffers.set b { x with toGrant := x.toGrant - 1 } } }) ∧
        (s.settings.bursts = 1 →
          ∃ y : LineBuffer, y.state = .empty ∧ y.toGrant = 0 ∧ exec (.writerClaim slot line) s = .next { s with
            transit := { s.transit with toMemory := rest },
            port := ⟨.absent, [], [], some (.writer slot line 0 (burstBytes x.colours 0) false)⟩,
            input := { s.input with buffers := s.input.buffers.set b y } })) ∧
      (∀ rest, s.transit.toMemory = .writerLine slot line :: rest → .discard slot ∈ rest →
        ∃ bytes : List Byte, bytes.length = 64 ∧ exec (.writerClaim slot line) s = .next { s with
          transit := { s.transit with toMemory := rest },
          port := ⟨.absent, [], if 2 ≤ s.settings.bursts then [⟨slot, line, 1⟩] else [],
            some (.writer slot line 0 bytes false)⟩,
          free := s.free + 64 }))

/-- A grant decision takes the first claim in the order of R150, and the last burst of a line frees its buffer
(R143, R150). A claim of a frame whose discard is on its way to the Memory Port has no buffer any more (R145): a later frame's
line in the same slot keeps its own (R123), and that the bytes granted are free values is the MODEL's choice (log 10). -/
def Obligations.ArbiterGrantsInOrder : Prop :=
  ∀ s : State, s.port.inFlight = none →
    (s.port.refresh = .present true →
      s.grant = { s with port := { s.port with refresh := .absent, inFlight := some .refresh } }) ∧
    (s.port.refresh ≠ .present true → s.out.urgent = true → ∀ r rest, s.port.readers = r :: rest →
      s.grant = { s with port := { s.port with
        readers := rest, inFlight := some (.reader r.slot r.line r.burst) } }) ∧
    (s.port.refresh ≠ .present true → s.out.urgent = false ∨ s.port.readers = [] →
      ∀ w rest b x, s.port.writers = w :: rest → s.input.waitingBuffer w.slot w.line = some b →
      s.input.buffers[b]? = some x → .discard w.slot ∉ s.transit.toMemory →
      (w.next + 1 < s.settings.bursts →
        s.grant = { s with
          port := { s.port with
            writers := { w with next := w.next + 1 } :: rest,
            inFlight := some (.writer w.slot w.line w.next (burstBytes x.colours w.next) false) },
          input := { s.input with buffers := s.input.buffers.set b { x with toGrant := x.toGrant - 1 } } }) ∧
      (w.next + 1 = s.settings.bursts →
        ∃ y : LineBuffer, y.state = .empty ∧ s.grant = { s with
          port := { s.port with
            writers := rest,
            inFlight := some (.writer w.slot w.line w.next (burstBytes x.colours w.next) false) },
          input := { s.input with buffers := s.input.buffers.set b y } })) ∧
    (s.port.refresh ≠ .present true → s.out.urgent = false ∨ s.port.readers = [] →
      ∀ w rest, s.port.writers = w :: rest → .discard w.slot ∈ s.transit.toMemory →
      ∃ bytes : List Byte, bytes.length = 64 ∧ s.grant = { s with
        port := { s.port with
          writers := if w.next + 1 < s.settings.bursts then { w with next := w.next + 1 } :: rest else rest,
          inFlight := some (.writer w.slot w.line w.next bytes false) },
        free := s.free + 64 }) ∧
    (s.port.refresh ≠ .present true → s.out.urgent = false → s.port.writers = [] →
      ∀ r rest, s.port.readers = r :: rest →
      s.grant = { s with port := { s.port with
        readers := rest, inFlight := some (.reader r.slot r.line r.burst) } }) ∧
    (s.port.refresh = .present false → s.port.writers = [] → s.port.readers = [] →
      s.grant = { s with port := { s.port with refresh := .absent, inFlight := some .refresh } }) ∧
    (s.port.refresh = .absent → s.port.writers = [] → s.port.readers = [] → s.grant = s)

/-- A burst that completes leaves the bus to the next grant: a reader burst delivers the 64 bytes at its address, and a writer
burst writes its 64 bytes there and nothing else, and at its last burst reports the line, unless it carries the drop mark (R147,
R151). The report is taken by the match of slot and line, whether a discard is on its way or not (R121), and completes a closing
frame at its last line: READY, or freed and skipped (R122). That frame memory is read and written at the completion is the MODEL's
choice (log 8), and so is that the READY record keeps its lines written and its closing flag (log 25). -/
def Obligations.BurstCompletionDelivers : Prop :=
  ∀ s : State, s.running = true →
    (s.port.inFlight = none → exec .burstCompletion s = .next s) ∧
    (s.port.inFlight = some .refresh →
      exec .burstCompletion s = .next ({ s with port := { s.port with inFlight := none } } : State).grant) ∧
    (∀ slot line burst addr,
      addr = slot * (s.settings.wh * s.settings.pitch) + line * s.settings.pitch + 64 * burst →
      addr + 64 ≤ s.settings.memoryBytes →
      (s.port.inFlight = some (.reader slot line burst) →
        exec .burstCompletion s = .next ({ s with
          port := { s.port with inFlight := none },
          transit := { s.transit with reads := s.transit.reads ++
            [⟨slot, line, burst, (List.range 64).map (fun k => ramRead s.ram (addr + k))⟩] } } : State).grant) ∧
      (∀ data drop, data.length = 64 → ramCanonical s.ram = true →
        s.port.inFlight = some (.writer slot line burst data drop) →
        ∃ ram table, exec .burstCompletion s = .next ({ s with
            port := { s.port with inFlight := none }, ram := ram, table := table } : State).grant ∧
          (∀ k < 64, data[k]? = some (ramRead ram (addr + k))) ∧
          (∀ a, a < addr ∨ addr + 64 ≤ a → ramRead ram a = ramRead s.ram a) ∧
          (drop = true ∨ burst + 1 < s.settings.bursts → table = s.table) ∧
          (drop = false → burst + 1 = s.settings.bursts →
            (¬(s.table.fillingSlot = some slot ∧ (s.table.slot slot).linesWritten = line) → table = s.table) ∧
            (s.table.fillingSlot = some slot → (s.table.slot slot).linesWritten = line →
              ((s.table.slot slot).closing = false ∨ line + 1 ≠ s.settings.wh →
                table = { s.table with slots := s.table.slots.modify slot (fun x =>
                  { x with linesWritten := line + 1 }) }) ∧
              (∀ c, (s.table.slot slot).closing = true → line + 1 = s.settings.wh →
                s.table.contentOf slot = some c →
                (s.table.newerThanHeld c = true → table = { s.table with
                  slots := s.table.slots.modify slot (fun x => { x with state := .ready, linesWritten := line + 1 }),
                  readyQueue := s.table.readyQueue ++ [slot] }) ∧
                (s.table.newerThanHeld c = false → table = { s.table with
                  slots := s.table.slots.modify slot (fun _ => ⟨.free, none, 0, false⟩),
                  skipped := s.table.skipped + 1 }))))))

/-- A discard, the next on its way, removes the writer claims of its slot and marks its burst in flight to be dropped (R152); a
withdrawal, the next on its way, removes the reader claims of its line and marks nothing (R153). What has been sent arrives once
and in order (R142): that a command for something else than the next on its way has no effect is the MODEL's choice (log 9). -/
def Obligations.DiscardsAndWithdrawalsEmptyTheLanes : Prop :=
  ∀ (s : State) (slot line : Nat), s.running = true →
    (∀ rest, s.transit.toMemory = .discard slot :: rest → ∃ t, exec (.memoryDiscard slot) s = .next t ∧
      t = { s with transit := { s.transit with toMemory := rest },
                   port := { s.port with writers := s.port.writers.filter (fun w => decide (w.slot ≠ slot)),
                                         inFlight := t.port.inFlight } } ∧
      (∀ l n data drop, s.port.inFlight = some (.writer slot l n data drop) →
        t.port.inFlight = some (.writer slot l n data true)) ∧
      (¬(∃ l n data drop, s.port.inFlight = some (.writer slot l n data drop)) →
        t.port.inFlight = s.port.inFlight)) ∧
    (∀ rest, s.transit.readerItems = .withdraw line :: rest →
      exec (.readerWithdrawal line) s = .next { s with
        transit := { s.transit with readerItems := rest },
        port := { s.port with readers := s.port.readers.filter (fun r => decide (r.line ≠ line)) } }) ∧
    (s.transit.toPclk.head? ≠ some .arrival → exec .frameOpenArrival s = .next s) ∧
    (s.transit.toPclk.head? ≠ some .leave → exec .leave s = .next s) ∧
    (s.transit.toPclk.head? ≠ some .rejoin → exec .rejoin s = .next s) ∧
    (s.transit.refreshes = 0 → exec .refreshClaim s = .next s) ∧
    (s.transit.toMemory.head? ≠ some (.writerLine slot line) → exec (.writerClaim slot line) s = .next s) ∧
    (s.transit.toMemory.head? ≠ some (.discard slot) → exec (.memoryDiscard slot) s = .next s) ∧
    (∀ item, s.transit.readerItems.head? ≠ some (.item item) → exec (.readerClaim item) s = .next s) ∧
    (s.transit.readerItems.head? ≠ some (.withdraw line) → exec (.readerWithdrawal line) s = .next s) ∧
    (∀ d, s.transit.reads.head? ≠ some d → exec (.readerCompletion d) s = .next s)

/-! ## The report port and the status pins -/

/-- A sent record leaves the queue and the next begins (R176, R181: in HALTED too). A post to a queue with a place is queued with
the lost count, which starts again from 0, and a post to a full queue is lost and counted (R177). That RECORD_SENT ends the record
wherever the transmitter stands in it, and has no effect on an empty queue, is the MODEL's choice (log 22). -/
def Obligations.RecordSentFreesItsPlace : Prop :=
  (∀ s : State,
    (s.report.queue = [] → exec .recordSent s = .next s) ∧
    (∀ q rest, s.report.queue = q :: rest → exec .recordSent s = .next { s with report := { s.report with
      queue := rest, tx := if rest = [] then .idle else .sending 0 0 s.report.divisor } })) ∧
  (∀ (p : ReportPort) (body : ReportBody),
    (p.queue.length < 4 →
      p.post body = { p with queue := p.queue ++ [⟨body, p.lost⟩], lost := 0, lastFrame := (p.post body).lastFrame } ∧
      (∀ f, body = .frame f → (p.post body).lastFrame = some ⟨f.outcome, f.state, f.r, f.hold⟩) ∧
      (∀ afn e, body = .event afn e → (p.post body).lastFrame = p.lastFrame)) ∧
    (4 ≤ p.queue.length → p.post body = { p with lost := p.lost + 1 }))

/-- A record of k characters takes 10 × k × divisor pixel clocks, and RPT carries each bit of each character for divisor of
them: start low, data least significant first, stop high (R176). The characters of a FRAME and of an EVENT record are the bytes of
Tables 13-4 to 13-6, with the CRC-16 of all before it at the end, high byte first (R178, R180, R184). -/
def Obligations.RecordTakesTenBitsPerCharacter : Prop :=
  (∀ (p : ReportPort) (q : QueuedRecord) (rest : List QueuedRecord) (m : Nat),
    p.queue = q :: rest → 1 ≤ p.divisor → p.tx = .sending 0 0 p.divisor →
    m < 10 * q.bytes.length * p.divisor →
    (((fun x : ReportPort => x.clock.1)^[m] p).clock.2 = true ↔ m + 1 = 10 * q.bytes.length * p.divisor) ∧
    ∀ (byte : Byte) (bit : Nat), q.bytes[m / (10 * p.divisor)]? = some byte → bit = m / p.divisor % 10 →
      (((fun x : ReportPort => x.clock.1)^[m] p).rpt = .high ↔
        bit = 9 ∨ 1 ≤ bit ∧ bit ≤ 8 ∧ byte.getLsbD (bit - 1) = true)) ∧
  (∀ (f : FrameRecord) (lost : Count16) (bytes : List Byte) (byte word : Nat → Nat),
    bytes = (⟨.frame f, lost⟩ : QueuedRecord).bytes → (∀ k, byte k = ((bytes[k]?).getD 0).toNat) →
    (∀ k, word k = 256 * byte k + byte (k + 1)) →
    bytes.length = 24 ∧ byte 0 = 0x46 ∧ word 1 = f.afn.toNat ∧
    byte 3 = (match f.state with
      | .config => 0 | .joining => 1 | .member => 2 | .parked => 3 | .listen => 4 | .resting => 5 | .halted => 6) +
      (if f.shown = none then 0 else 16) ∧
    byte 4 = (match f.outcome with
      | .none => 0 | .swapped => 1 | .repeated => 2 | .joined => 3 | .founded => 4 | .withdrew => 5) ∧
    word 5 = (f.shown.getD 0).toNat ∧ byte 7 = f.readyCount % 256 ∧ word 8 = f.r.toNat ∧
    byte 10 = (match f.hold with
      | .none => 0 | .reception => 1 | .step => 2 | .noTarget => 3 | .notReady => 4 | .pendingWithdrawal => 5
      | .notVoting => 6) ∧
    byte 11 = (match f.role with
      | .none => 0 | .lead => 1 | .follow _ => 2 | .jump _ => 3) ∧
    word 12 = (match f.role with
      | .none => 0 | .lead => 0 | .follow cut => cut % 65536 | .jump cut => cut % 65536) ∧
    byte 14 = f.refused.toNat ∧ byte 15 = f.defective.toNat ∧ byte 16 = f.skipped.toNat ∧
    byte 17 = f.underruns.toNat ∧ byte 18 = f.strays.toNat ∧ byte 19 = f.strayInput.toNat ∧
    word 20 = lost.toNat ∧ word 22 = (crc16 lsbFirst (bytes.take 22)).toNat) ∧
  (∀ (e : Event) (afn lost : Count16) (bytes : List Byte) (byte word : Nat → Nat),
    bytes = (⟨.event afn e, lost⟩ : QueuedRecord).bytes → (∀ k, byte k = ((bytes[k]?).getD 0).toNat) →
    (∀ k, word k = 256 * byte k + byte (k + 1)) →
    bytes.length = 12 ∧ byte 0 = 0x45 ∧ word 2 = afn.toNat ∧
    (∀ i n, e = .started i n → byte 1 = 1 ∧ byte 4 = i.toNat ∧ byte 5 = n % 256 ∧ word 6 = 0) ∧
    (∀ code k, e = .configFault code k → byte 1 = 2 ∧ byte 4 = code % 256 ∧ byte 5 = k % 256 ∧ word 6 = 0) ∧
    (∀ cut, e = .trackingEdge cut → byte 1 = 3 ∧ byte 4 = 0 ∧ word 5 = cut % 65536 ∧ byte 7 = 0) ∧
    (e = .trackingSilence → byte 1 = 3 ∧ byte 4 = 1 ∧ word 5 = 0 ∧ byte 7 = 0) ∧
    (∀ T, e = .joined T → byte 1 = 5 ∧ word 4 = T.toNat ∧ word 6 = 0) ∧
    (e = .founded → byte 1 = 6 ∧ word 4 = 0 ∧ word 6 = 0) ∧
    (∀ cause, e = .withdrew cause → byte 1 = 7 ∧ byte 5 = 0 ∧ word 6 = 0 ∧ byte 4 = (match cause with
      | .leave => 1 | .inputSilent => 2 | .markLost => 3 | .claimLost => 4 | .unheard => 5 | .reception => 6
      | .outOfStep => 7)) ∧
    (∀ state, e = .markLost state ∨ e = .parked state ∨ e = .rejoinIgnored state →
      (byte 1 = if e = .markLost state then 4 else if e = .parked state then 8 else 9) ∧
      byte 5 = 0 ∧ word 6 = 0 ∧ byte 4 = (match state with
      | .config => 0 | .joining => 1 | .member => 2 | .parked => 3 | .listen => 4 | .resting => 5 | .halted => 6)) ∧
    word 8 = lost.toNat ∧ word 10 = (crc16 lsbFirst (bytes.take 10)).toNat) ∧
  (∀ (bits : Byte → List Bool) (bytes : List Byte) (b : Byte),
    crc16 bits [] = 0xFFFF#16 ∧
    crc16 bits (bytes ++ [b]) = (bits b).foldl (fun (register : BitVec 16) (bit : Bool) =>
      if register.getLsbD 15 = bit then register <<< 1 else (register <<< 1) ^^^ 0x8005#16) (crc16 bits bytes) ∧
    lsbFirst b = [b.getLsbD 0, b.getLsbD 1, b.getLsbD 2, b.getLsbD 3, b.getLsbD 4, b.getLsbD 5, b.getLsbD 6,
      b.getLsbD 7] ∧
    msbFirst b = (lsbFirst b).reverse)

/-- The level of ATTN in each membership state (R182). -/
def Obligations.AttnTellsWhetherInService : Prop :=
  ∀ s : State,
    (s.member.state = .listen ∨ s.member.state = .joining ∨ s.member.state = .resting ∨ s.member.state = .halted →
      s.pins.attn = .high) ∧
    (s.member.state = .config ∨ s.member.state = .member ∨ s.member.state = .parked → s.pins.attn = .low) ∧
    ∀ kind t, exec (.reset kind) s = .next t → t.pins.attn = .low

/-! ## What every step keeps -/

/-- The counters stay within their frame, and every run, count and list within its range (R3, R5, Tables 2.3, 4-1, 5-1, 6-2,
12-1). -/
def Obligations.EveryStepKeepsCountersAndRuns : Prop :=
  ∀ s t : State, s.CountersInRange → s.RunsInRange → step s = .next t → t.CountersInRange ∧ t.RunsInRange

/-- Membership, the Timebase and the runs stay in agreement (Tables 6-1 and 6-2, R98 to R115). -/
def Obligations.EveryStepKeepsMembershipLegal : Prop :=
  ∀ s t : State, s.MembershipLegal → step s = .next t → t.MembershipLegal

/-- The ready queue stays strictly increasing and newer than SHOWN, SHOWN stays a MEMBER's alone, and the Input Port and the Slot
Table stay in agreement (R111, R116 to R123). -/
def Obligations.EveryStepKeepsTheSlotTable : Prop :=
  ∀ s t : State, s.TableLegal → s.InputLegal → s.MembershipLegal → step s = .next t → t.TableLegal ∧ t.InputLegal

/-- Whenever a claim waits the bus carries a burst, urgent stands as R160 says, and frame memory keeps its canonical form
(R150, R160; log 7). -/
def Obligations.EveryStepKeepsMemoryLive : Prop :=
  ∀ s t : State, s.MemoryPortLive → s.MemoryCanonical → step s = .next t → t.MemoryPortLive ∧ t.MemoryCanonical

/-- Every invariant holds right after reset. -/
def Obligations.InvariantsHoldAtReset : Prop :=
  State.reset.CountersInRange ∧ State.reset.RunsInRange ∧ State.reset.MembershipLegal ∧ State.reset.TableLegal ∧
    State.reset.InputLegal ∧ State.reset.MemoryPortLive ∧ State.reset.MemoryCanonical

/-- Only the swap line and reset make or unmake a MEMBER, move SHOWN, or take a slot out of the ready queue (R111, R126, R130,
R157). -/
def Obligations.OnlyTheSwapLineChangesShown : Prop :=
  ∀ (c : Instr) (s t : State), s.running = true → s.table.Consistent → s.member.state ≠ .config →
    c ≠ .swapLine → (∀ kind, c ≠ .reset kind) → exec c s = .next t →
    (t.member.state = .member ↔ s.member.state = .member) ∧
    t.table.shown = s.table.shown ∧ t.table.shownContent = s.table.shownContent ∧
    s.table.readyQueue <+: t.table.readyQueue ∧
    ∀ i ∈ s.table.readyQueue, t.table.slot i = s.table.slot i
end

