-- ==== Sys2Proof/Laws/Bytes.lean ====
section
/-! SUPPORT. Bytes and 16-bit fields: what a run of fields holds where (13_data_formats.md), the state code of an announcement
(Table 13-1), and the place of a control word's fields (Table 13-2). -/

namespace Sys2Proof

/-- The place of the type, the payload and the protection value (Table 13-2). -/
theorem controlWord_toNat (kind : BitVec 4) (payload : BitVec 16) :
    (controlWord kind payload).toNat =
      1048576 * kind.toNat + 16 * payload.toNat + (protection (kind ++ payload : BitVec 20)).toNat := by
  have outer := BitVec.toNat_append (kind ++ payload : BitVec 20) (protection (kind ++ payload : BitVec 20))
  have inner := BitVec.toNat_append kind payload
  rw [← Nat.shiftLeft_add_eq_or_of_lt (BitVec.isLt _), Nat.shiftLeft_eq] at outer inner
  have whole : (controlWord kind payload).toNat =
      ((kind ++ payload : BitVec 20) ++ protection (kind ++ payload : BitVec 20)).toNat := rfl
  have field : (kind ++ payload : BitVec 20).toNat = (kind ++ payload).toNat := rfl
  omega

namespace Machine

/-- A 16-bit field is its two bytes, high byte first. -/
theorem bytes16_toNat (w : BitVec 16) : 256 * (hiByte w).toNat + (loByte w).toNat = w.toNat := by
  simp only [hiByte, loByte, BitVec.extractLsb'_toNat, Nat.shiftRight_eq_div_pow]; omega

/-- The field of two bytes. -/
theorem word16_toNat (hi lo : Byte) : (word16 hi lo).toNat = 256 * hi.toNat + lo.toNat := by
  have := BitVec.toNat_append hi lo
  rw [← Nat.shiftLeft_add_eq_or_of_lt lo.isLt, Nat.shiftLeft_eq] at this
  have whole : (word16 hi lo).toNat = (hi ++ lo).toNat := rfl
  omega

/-- Field `k` of a run of fields stands in bytes 2k and 2k + 1. -/
theorem flatMap_bytes16_getElem? (l : List (BitVec 16)) (k : Nat) :
    (l.flatMap bytes16)[2 * k]? = (l[k]?).map hiByte ∧ (l.flatMap bytes16)[2 * k + 1]? = (l[k]?).map loByte := by
  induction l generalizing k with
  | nil => simp
  | cons x l ih =>
    cases k with
    | zero => simp [bytes16]
    | succ k =>
      have := ih k
      rw [List.flatMap_cons, show 2 * (k + 1) = 2 * k + 2 by omega, show 2 * k + 2 + 1 = (2 * k + 1) + 2 by omega]
      simpa [bytes16] using this

@[simp] theorem length_flatMap_bytes16 (l : List (BitVec 16)) : (l.flatMap bytes16).length = 2 * l.length := by
  simp [bytes16, List.length_flatMap, Nat.mul_comm]

/-- A run of bytes holds half as many fields. -/
@[simp] theorem length_words16 (l : List Byte) : (words16 l).length = l.length / 2 := by
  fun_induction words16 l with
  | case1 hi lo rest ih => simp [ih]; omega
  | case2 l h =>
    rcases l with _ | ⟨x, _ | ⟨y, r⟩⟩
    · rfl
    · simp
    · exact absurd rfl (h x y r)

/-- Field `k` of a run of bytes. -/
theorem words16_getElem? (l : List Byte) (k : Nat) (h : 2 * k + 1 < l.length) :
    (words16 l)[k]? = some (word16 (l[2 * k]?.getD 0) (l[2 * k + 1]?.getD 0)) := by
  fun_induction words16 l generalizing k with
  | case1 hi lo rest ih =>
    cases k with
    | zero => rfl
    | succ k =>
      have := ih k (by simp at h; omega)
      rw [show 2 * (k + 1) = 2 * k + 2 by omega, show 2 * k + 2 + 1 = (2 * k + 1) + 2 by omega]
      simpa using this
  | case2 l hh =>
    rcases l with _ | ⟨x, _ | ⟨y, r⟩⟩
    · simp at h
    · simp at h
    · exact absurd rfl (hh x y r)

/-- The state codes of an announcement (Table 13-1). -/
theorem announcedState_eq_some (code : BitVec 4) (state : AnnouncedState) :
    announcedState code = some state ↔ code = state.code := by
  revert code; cases state <;> decide

/-- The length that the count calls for, and the count itself, of a valid announcement (R50, R51). -/
theorem parseAnnouncement_length {slot : Nat} {message : List Byte} {h : Announcement}
    (hp : parseAnnouncement slot message = some h) :
    message.length = 11 + 2 * ((message[6]?).getD 0).toNat ∧ ((message[6]?).getD 0).toNat ≤ 3 := by
  unfold parseAnnouncement at hp
  split at hp
  · dsimp only at hp
    split at hp
    · split at hp
      · rename_i valid
        exact ⟨valid.2.2.2.1, valid.2.2.1⟩
      · cases hp
    · cases hp
  · cases hp

end Machine

end Sys2Proof
end

