-- ==== Sys2Proof/Laws/State.lean ====
section
/-! SUPPORT. What the named updates of State leave unchanged, one lemma for each field, and what they set. -/

namespace Sys2Proof.Machine

open Sys2Proof

/-! ## moveTo -/

@[simp] theorem State.moveTo_settings (s : State) (ln px : Nat) : (s.moveTo ln px).settings = s.settings := rfl
@[simp] theorem State.moveTo_mark (s : State) (ln px : Nat) : (s.moveTo ln px).mark = s.mark := rfl
@[simp] theorem State.moveTo_link (s : State) (ln px : Nat) : (s.moveTo ln px).link = s.link := rfl
@[simp] theorem State.moveTo_roster (s : State) (ln px : Nat) : (s.moveTo ln px).roster = s.roster := rfl
@[simp] theorem State.moveTo_consent (s : State) (ln px : Nat) : (s.moveTo ln px).consent = s.consent := rfl
@[simp] theorem State.moveTo_member (s : State) (ln px : Nat) : (s.moveTo ln px).member = s.member := rfl
@[simp] theorem State.moveTo_table (s : State) (ln px : Nat) : (s.moveTo ln px).table = s.table := rfl
@[simp] theorem State.moveTo_input (s : State) (ln px : Nat) : (s.moveTo ln px).input = s.input := rfl
@[simp] theorem State.moveTo_port (s : State) (ln px : Nat) : (s.moveTo ln px).port = s.port := rfl
@[simp] theorem State.moveTo_ram (s : State) (ln px : Nat) : (s.moveTo ln px).ram = s.ram := rfl
@[simp] theorem State.moveTo_out (s : State) (ln px : Nat) : (s.moveTo ln px).out = s.out := rfl
@[simp] theorem State.moveTo_loader (s : State) (ln px : Nat) : (s.moveTo ln px).loader = s.loader := rfl
@[simp] theorem State.moveTo_report (s : State) (ln px : Nat) : (s.moveTo ln px).report = s.report := rfl
@[simp] theorem State.moveTo_transit (s : State) (ln px : Nat) : (s.moveTo ln px).transit = s.transit := rfl
@[simp] theorem State.moveTo_free (s : State) (ln px : Nat) : (s.moveTo ln px).free = s.free := rfl
@[simp] theorem State.moveTo_pending (s : State) (ln px : Nat) : (s.moveTo ln px).pending = s.pending := rfl

/-! ## postEvent -/

@[simp] theorem State.postEvent_settings (s : State) (e : Event) : (s.postEvent e).settings = s.settings := rfl
@[simp] theorem State.postEvent_tb (s : State) (e : Event) : (s.postEvent e).tb = s.tb := rfl
@[simp] theorem State.postEvent_mark (s : State) (e : Event) : (s.postEvent e).mark = s.mark := rfl
@[simp] theorem State.postEvent_link (s : State) (e : Event) : (s.postEvent e).link = s.link := rfl
@[simp] theorem State.postEvent_roster (s : State) (e : Event) : (s.postEvent e).roster = s.roster := rfl
@[simp] theorem State.postEvent_consent (s : State) (e : Event) : (s.postEvent e).consent = s.consent := rfl
@[simp] theorem State.postEvent_member (s : State) (e : Event) : (s.postEvent e).member = s.member := rfl
@[simp] theorem State.postEvent_table (s : State) (e : Event) : (s.postEvent e).table = s.table := rfl
@[simp] theorem State.postEvent_input (s : State) (e : Event) : (s.postEvent e).input = s.input := rfl
@[simp] theorem State.postEvent_port (s : State) (e : Event) : (s.postEvent e).port = s.port := rfl
@[simp] theorem State.postEvent_ram (s : State) (e : Event) : (s.postEvent e).ram = s.ram := rfl
@[simp] theorem State.postEvent_out (s : State) (e : Event) : (s.postEvent e).out = s.out := rfl
@[simp] theorem State.postEvent_loader (s : State) (e : Event) : (s.postEvent e).loader = s.loader := rfl
@[simp] theorem State.postEvent_transit (s : State) (e : Event) : (s.postEvent e).transit = s.transit := rfl
@[simp] theorem State.postEvent_free (s : State) (e : Event) : (s.postEvent e).free = s.free := rfl
@[simp] theorem State.postEvent_pending (s : State) (e : Event) : (s.postEvent e).pending = s.pending := rfl

/-! ## settleUrgent -/

@[simp] theorem State.settleUrgent_settings (s : State) : (s.settleUrgent).settings = s.settings := rfl
@[simp] theorem State.settleUrgent_tb (s : State) : (s.settleUrgent).tb = s.tb := rfl
@[simp] theorem State.settleUrgent_mark (s : State) : (s.settleUrgent).mark = s.mark := rfl
@[simp] theorem State.settleUrgent_link (s : State) : (s.settleUrgent).link = s.link := rfl
@[simp] theorem State.settleUrgent_roster (s : State) : (s.settleUrgent).roster = s.roster := rfl
@[simp] theorem State.settleUrgent_consent (s : State) : (s.settleUrgent).consent = s.consent := rfl
@[simp] theorem State.settleUrgent_member (s : State) : (s.settleUrgent).member = s.member := rfl
@[simp] theorem State.settleUrgent_table (s : State) : (s.settleUrgent).table = s.table := rfl
@[simp] theorem State.settleUrgent_input (s : State) : (s.settleUrgent).input = s.input := rfl
@[simp] theorem State.settleUrgent_port (s : State) : (s.settleUrgent).port = s.port := rfl
@[simp] theorem State.settleUrgent_ram (s : State) : (s.settleUrgent).ram = s.ram := rfl
@[simp] theorem State.settleUrgent_loader (s : State) : (s.settleUrgent).loader = s.loader := rfl
@[simp] theorem State.settleUrgent_report (s : State) : (s.settleUrgent).report = s.report := rfl
@[simp] theorem State.settleUrgent_transit (s : State) : (s.settleUrgent).transit = s.transit := rfl
@[simp] theorem State.settleUrgent_free (s : State) : (s.settleUrgent).free = s.free := rfl
@[simp] theorem State.settleUrgent_pending (s : State) : (s.settleUrgent).pending = s.pending := rfl

/-! ## moveToEnd -/

@[simp] theorem State.moveToEnd_settings (s : State) (ln px : Nat) : (s.moveToEnd ln px).settings = s.settings := rfl
@[simp] theorem State.moveToEnd_mark (s : State) (ln px : Nat) : (s.moveToEnd ln px).mark = s.mark := rfl
@[simp] theorem State.moveToEnd_link (s : State) (ln px : Nat) : (s.moveToEnd ln px).link = s.link := rfl
@[simp] theorem State.moveToEnd_roster (s : State) (ln px : Nat) : (s.moveToEnd ln px).roster = s.roster := rfl
@[simp] theorem State.moveToEnd_consent (s : State) (ln px : Nat) : (s.moveToEnd ln px).consent = s.consent := rfl
@[simp] theorem State.moveToEnd_member (s : State) (ln px : Nat) : (s.moveToEnd ln px).member = s.member := rfl
@[simp] theorem State.moveToEnd_table (s : State) (ln px : Nat) : (s.moveToEnd ln px).table = s.table := rfl
@[simp] theorem State.moveToEnd_input (s : State) (ln px : Nat) : (s.moveToEnd ln px).input = s.input := rfl
@[simp] theorem State.moveToEnd_port (s : State) (ln px : Nat) : (s.moveToEnd ln px).port = s.port := rfl
@[simp] theorem State.moveToEnd_ram (s : State) (ln px : Nat) : (s.moveToEnd ln px).ram = s.ram := rfl
@[simp] theorem State.moveToEnd_out (s : State) (ln px : Nat) : (s.moveToEnd ln px).out = s.out := rfl
@[simp] theorem State.moveToEnd_loader (s : State) (ln px : Nat) : (s.moveToEnd ln px).loader = s.loader := rfl
@[simp] theorem State.moveToEnd_report (s : State) (ln px : Nat) : (s.moveToEnd ln px).report = s.report := rfl
@[simp] theorem State.moveToEnd_transit (s : State) (ln px : Nat) : (s.moveToEnd ln px).transit = s.transit := rfl
@[simp] theorem State.moveToEnd_free (s : State) (ln px : Nat) : (s.moveToEnd ln px).free = s.free := rfl
@[simp] theorem State.moveToEnd_pending (s : State) (ln px : Nat) : (s.moveToEnd ln px).pending = s.pending := rfl

/-! ## takeReport -/

@[simp] theorem State.takeReport_settings (s : State) : (s.takeReport).settings = s.settings := rfl
@[simp] theorem State.takeReport_tb (s : State) : (s.takeReport).tb = s.tb := rfl
@[simp] theorem State.takeReport_mark (s : State) : (s.takeReport).mark = s.mark := rfl
@[simp] theorem State.takeReport_link (s : State) : (s.takeReport).link = s.link := rfl
@[simp] theorem State.takeReport_roster (s : State) : (s.takeReport).roster = s.roster := rfl
@[simp] theorem State.takeReport_consent (s : State) : (s.takeReport).consent = s.consent := rfl
@[simp] theorem State.takeReport_member (s : State) : (s.takeReport).member = s.member := rfl
@[simp] theorem State.takeReport_table (s : State) : (s.takeReport).table = s.table := rfl
@[simp] theorem State.takeReport_input (s : State) : (s.takeReport).input = s.input := rfl
@[simp] theorem State.takeReport_port (s : State) : (s.takeReport).port = s.port := rfl
@[simp] theorem State.takeReport_ram (s : State) : (s.takeReport).ram = s.ram := rfl
@[simp] theorem State.takeReport_out (s : State) : (s.takeReport).out = s.out := rfl
@[simp] theorem State.takeReport_loader (s : State) : (s.takeReport).loader = s.loader := rfl
@[simp] theorem State.takeReport_report (s : State) : (s.takeReport).report = s.report := rfl
@[simp] theorem State.takeReport_free (s : State) : (s.takeReport).free = s.free := rfl
@[simp] theorem State.takeReport_pending (s : State) : (s.takeReport).pending = s.pending := rfl

/-! ## clockLoader -/

@[simp] theorem State.clockLoader_settings (s : State) : (s.clockLoader).settings = s.settings := rfl
@[simp] theorem State.clockLoader_tb (s : State) : (s.clockLoader).tb = s.tb := rfl
@[simp] theorem State.clockLoader_mark (s : State) : (s.clockLoader).mark = s.mark := rfl
@[simp] theorem State.clockLoader_link (s : State) : (s.clockLoader).link = s.link := rfl
@[simp] theorem State.clockLoader_roster (s : State) : (s.clockLoader).roster = s.roster := rfl
@[simp] theorem State.clockLoader_consent (s : State) : (s.clockLoader).consent = s.consent := rfl
@[simp] theorem State.clockLoader_member (s : State) : (s.clockLoader).member = s.member := rfl
@[simp] theorem State.clockLoader_table (s : State) : (s.clockLoader).table = s.table := rfl
@[simp] theorem State.clockLoader_input (s : State) : (s.clockLoader).input = s.input := rfl
@[simp] theorem State.clockLoader_port (s : State) : (s.clockLoader).port = s.port := rfl
@[simp] theorem State.clockLoader_ram (s : State) : (s.clockLoader).ram = s.ram := rfl
@[simp] theorem State.clockLoader_out (s : State) : (s.clockLoader).out = s.out := rfl
@[simp] theorem State.clockLoader_report (s : State) : (s.clockLoader).report = s.report := rfl
@[simp] theorem State.clockLoader_transit (s : State) : (s.clockLoader).transit = s.transit := rfl
@[simp] theorem State.clockLoader_free (s : State) : (s.clockLoader).free = s.free := rfl
@[simp] theorem State.clockLoader_pending (s : State) : (s.clockLoader).pending = s.pending := rfl

/-! ## raise -/

@[simp] theorem State.raise_settings (s : State) (cause : WithdrawalCause) : (s.raise cause).settings = s.settings := rfl
@[simp] theorem State.raise_tb (s : State) (cause : WithdrawalCause) : (s.raise cause).tb = s.tb := rfl
@[simp] theorem State.raise_mark (s : State) (cause : WithdrawalCause) : (s.raise cause).mark = s.mark := rfl
@[simp] theorem State.raise_link (s : State) (cause : WithdrawalCause) : (s.raise cause).link = s.link := rfl
@[simp] theorem State.raise_roster (s : State) (cause : WithdrawalCause) : (s.raise cause).roster = s.roster := rfl
@[simp] theorem State.raise_table (s : State) (cause : WithdrawalCause) : (s.raise cause).table = s.table := rfl
@[simp] theorem State.raise_input (s : State) (cause : WithdrawalCause) : (s.raise cause).input = s.input := rfl
@[simp] theorem State.raise_port (s : State) (cause : WithdrawalCause) : (s.raise cause).port = s.port := rfl
@[simp] theorem State.raise_ram (s : State) (cause : WithdrawalCause) : (s.raise cause).ram = s.ram := rfl
@[simp] theorem State.raise_out (s : State) (cause : WithdrawalCause) : (s.raise cause).out = s.out := rfl
@[simp] theorem State.raise_loader (s : State) (cause : WithdrawalCause) : (s.raise cause).loader = s.loader := rfl
@[simp] theorem State.raise_report (s : State) (cause : WithdrawalCause) : (s.raise cause).report = s.report := rfl
@[simp] theorem State.raise_transit (s : State) (cause : WithdrawalCause) : (s.raise cause).transit = s.transit := rfl
@[simp] theorem State.raise_free (s : State) (cause : WithdrawalCause) : (s.raise cause).free = s.free := rfl
@[simp] theorem State.raise_pending (s : State) (cause : WithdrawalCause) : (s.raise cause).pending = s.pending := rfl

/-! ## trackOrder -/

@[simp] theorem State.trackOrder_settings (s : State) : (s.trackOrder).settings = s.settings := rfl
@[simp] theorem State.trackOrder_mark (s : State) : (s.trackOrder).mark = s.mark := rfl
@[simp] theorem State.trackOrder_link (s : State) : (s.trackOrder).link = s.link := rfl
@[simp] theorem State.trackOrder_roster (s : State) : (s.trackOrder).roster = s.roster := rfl
@[simp] theorem State.trackOrder_consent (s : State) : (s.trackOrder).consent = s.consent := rfl
@[simp] theorem State.trackOrder_table (s : State) : (s.trackOrder).table = s.table := rfl
@[simp] theorem State.trackOrder_input (s : State) : (s.trackOrder).input = s.input := rfl
@[simp] theorem State.trackOrder_port (s : State) : (s.trackOrder).port = s.port := rfl
@[simp] theorem State.trackOrder_ram (s : State) : (s.trackOrder).ram = s.ram := rfl
@[simp] theorem State.trackOrder_out (s : State) : (s.trackOrder).out = s.out := rfl
@[simp] theorem State.trackOrder_loader (s : State) : (s.trackOrder).loader = s.loader := rfl
@[simp] theorem State.trackOrder_report (s : State) : (s.trackOrder).report = s.report := rfl
@[simp] theorem State.trackOrder_transit (s : State) : (s.trackOrder).transit = s.transit := rfl
@[simp] theorem State.trackOrder_free (s : State) : (s.trackOrder).free = s.free := rfl
@[simp] theorem State.trackOrder_pending (s : State) : (s.trackOrder).pending = s.pending := rfl

/-! ## endBurst -/

@[simp] theorem State.endBurst_settings (s : State) : (s.endBurst).settings = s.settings := rfl
@[simp] theorem State.endBurst_tb (s : State) : (s.endBurst).tb = s.tb := rfl
@[simp] theorem State.endBurst_mark (s : State) : (s.endBurst).mark = s.mark := rfl
@[simp] theorem State.endBurst_link (s : State) : (s.endBurst).link = s.link := rfl
@[simp] theorem State.endBurst_roster (s : State) : (s.endBurst).roster = s.roster := rfl
@[simp] theorem State.endBurst_consent (s : State) : (s.endBurst).consent = s.consent := rfl
@[simp] theorem State.endBurst_member (s : State) : (s.endBurst).member = s.member := rfl
@[simp] theorem State.endBurst_table (s : State) : (s.endBurst).table = s.table := rfl
@[simp] theorem State.endBurst_input (s : State) : (s.endBurst).input = s.input := rfl
@[simp] theorem State.endBurst_ram (s : State) : (s.endBurst).ram = s.ram := rfl
@[simp] theorem State.endBurst_out (s : State) : (s.endBurst).out = s.out := rfl
@[simp] theorem State.endBurst_loader (s : State) : (s.endBurst).loader = s.loader := rfl
@[simp] theorem State.endBurst_report (s : State) : (s.endBurst).report = s.report := rfl
@[simp] theorem State.endBurst_transit (s : State) : (s.endBurst).transit = s.transit := rfl
@[simp] theorem State.endBurst_free (s : State) : (s.endBurst).free = s.free := rfl
@[simp] theorem State.endBurst_pending (s : State) : (s.endBurst).pending = s.pending := rfl

/-! ## reportFrame -/

@[simp] theorem State.reportFrame_settings (s : State) (before : MembershipState) (outcome : FrameOutcome) : (s.reportFrame before outcome).settings = s.settings := by
  unfold State.reportFrame; split <;> rfl
@[simp] theorem State.reportFrame_tb (s : State) (before : MembershipState) (outcome : FrameOutcome) : (s.reportFrame before outcome).tb = s.tb := by
  unfold State.reportFrame; split <;> rfl
@[simp] theorem State.reportFrame_mark (s : State) (before : MembershipState) (outcome : FrameOutcome) : (s.reportFrame before outcome).mark = s.mark := by
  unfold State.reportFrame; split <;> rfl
@[simp] theorem State.reportFrame_link (s : State) (before : MembershipState) (outcome : FrameOutcome) : (s.reportFrame before outcome).link = s.link := by
  unfold State.reportFrame; split <;> rfl
@[simp] theorem State.reportFrame_roster (s : State) (before : MembershipState) (outcome : FrameOutcome) : (s.reportFrame before outcome).roster = s.roster := by
  unfold State.reportFrame; split <;> rfl
@[simp] theorem State.reportFrame_consent (s : State) (before : MembershipState) (outcome : FrameOutcome) : (s.reportFrame before outcome).consent = s.consent := by
  unfold State.reportFrame; split <;> rfl
@[simp] theorem State.reportFrame_member (s : State) (before : MembershipState) (outcome : FrameOutcome) : (s.reportFrame before outcome).member = s.member := by
  unfold State.reportFrame; split <;> rfl
@[simp] theorem State.reportFrame_table (s : State) (before : MembershipState) (outcome : FrameOutcome) : (s.reportFrame before outcome).table = s.table := by
  unfold State.reportFrame; split <;> rfl
@[simp] theorem State.reportFrame_input (s : State) (before : MembershipState) (outcome : FrameOutcome) : (s.reportFrame before outcome).input = s.input := by
  unfold State.reportFrame; split <;> rfl
@[simp] theorem State.reportFrame_port (s : State) (before : MembershipState) (outcome : FrameOutcome) : (s.reportFrame before outcome).port = s.port := by
  unfold State.reportFrame; split <;> rfl
@[simp] theorem State.reportFrame_ram (s : State) (before : MembershipState) (outcome : FrameOutcome) : (s.reportFrame before outcome).ram = s.ram := by
  unfold State.reportFrame; split <;> rfl
@[simp] theorem State.reportFrame_out (s : State) (before : MembershipState) (outcome : FrameOutcome) : (s.reportFrame before outcome).out = s.out := by
  unfold State.reportFrame; split <;> rfl
@[simp] theorem State.reportFrame_loader (s : State) (before : MembershipState) (outcome : FrameOutcome) : (s.reportFrame before outcome).loader = s.loader := by
  unfold State.reportFrame; split <;> rfl
@[simp] theorem State.reportFrame_transit (s : State) (before : MembershipState) (outcome : FrameOutcome) : (s.reportFrame before outcome).transit = s.transit := by
  unfold State.reportFrame; split <;> rfl
@[simp] theorem State.reportFrame_free (s : State) (before : MembershipState) (outcome : FrameOutcome) : (s.reportFrame before outcome).free = s.free := by
  unfold State.reportFrame; split <;> rfl
@[simp] theorem State.reportFrame_pending (s : State) (before : MembershipState) (outcome : FrameOutcome) : (s.reportFrame before outcome).pending = s.pending := by
  unfold State.reportFrame; split <;> rfl

/-! ## whenNext (log 9) -/

@[simp] theorem State.whenNext_true (s t : State) : s.whenNext true t = t := rfl
@[simp] theorem State.whenNext_false (s t : State) : s.whenNext false t = s := rfl

end Sys2Proof.Machine
end

