-- ==== Sys2Proof/Laws/Fields.lean ====
section
/-! SUPPORT. The fields that each operation of a block leaves unchanged: its frame. -/

namespace Sys2Proof.Machine

open Sys2Proof

@[simp] theorem State.settleTransmission_frame (s : State) :
    (s.settleTransmission).settings = s.settings ∧ (s.settleTransmission).tb = s.tb ∧
    (s.settleTransmission).mark = s.mark ∧ (s.settleTransmission).roster = s.roster ∧
    (s.settleTransmission).consent = s.consent ∧ (s.settleTransmission).member = s.member ∧
    (s.settleTransmission).table = s.table ∧ (s.settleTransmission).input = s.input ∧
    (s.settleTransmission).port = s.port ∧ (s.settleTransmission).ram = s.ram ∧ (s.settleTransmission).out = s.out ∧
    (s.settleTransmission).loader = s.loader ∧ (s.settleTransmission).report = s.report ∧
    (s.settleTransmission).transit = s.transit ∧ (s.settleTransmission).free = s.free ∧
    (s.settleTransmission).pending = s.pending := by
  unfold State.settleTransmission; split <;> simp

@[simp] theorem State.enterListen_frame (s : State) :
    (s.enterListen).settings = s.settings ∧ (s.enterListen).consent = s.consent ∧ (s.enterListen).table = s.table ∧
    (s.enterListen).input = s.input ∧ (s.enterListen).port = s.port ∧ (s.enterListen).ram = s.ram ∧
    (s.enterListen).out = s.out ∧ (s.enterListen).loader = s.loader ∧ (s.enterListen).report = s.report ∧
    (s.enterListen).transit = s.transit ∧ (s.enterListen).free = s.free ∧ (s.enterListen).pending = s.pending := by
  simp [State.enterListen]

@[simp] theorem State.rejoinStep_frame (s : State) :
    (s.rejoinStep).settings = s.settings ∧ (s.rejoinStep).consent = s.consent ∧ (s.rejoinStep).table = s.table ∧
    (s.rejoinStep).input = s.input ∧ (s.rejoinStep).port = s.port ∧ (s.rejoinStep).ram = s.ram ∧
    (s.rejoinStep).out = s.out ∧ (s.rejoinStep).loader = s.loader ∧ (s.rejoinStep).report = s.report ∧
    (s.rejoinStep).transit = s.transit ∧ (s.rejoinStep).free = s.free ∧ (s.rejoinStep).pending = s.pending := by
  unfold State.rejoinStep; split <;> simp

@[simp] theorem State.restStep_frame (s : State) :
    (s.restStep).settings = s.settings ∧ (s.restStep).consent = s.consent ∧ (s.restStep).table = s.table ∧
    (s.restStep).input = s.input ∧ (s.restStep).port = s.port ∧ (s.restStep).ram = s.ram ∧ (s.restStep).out = s.out ∧
    (s.restStep).loader = s.loader ∧ (s.restStep).report = s.report ∧ (s.restStep).transit = s.transit ∧
    (s.restStep).free = s.free ∧ (s.restStep).pending = s.pending := by
  unfold State.restStep; (repeat' split) <;> simp

@[simp] theorem State.missStep_frame (s : State) (handed : Option Nat) :
    (s.missStep handed).settings = s.settings ∧ (s.missStep handed).table = s.table ∧
    (s.missStep handed).input = s.input ∧ (s.missStep handed).port = s.port ∧ (s.missStep handed).ram = s.ram ∧
    (s.missStep handed).out = s.out ∧ (s.missStep handed).loader = s.loader ∧ (s.missStep handed).report = s.report ∧
    (s.missStep handed).transit = s.transit ∧ (s.missStep handed).free = s.free ∧
    (s.missStep handed).pending = s.pending := by
  unfold State.missStep; (repeat' split) <;> simp

@[simp] theorem State.emptyStep_frame (s : State) (had : Bool) :
    (s.emptyStep had).settings = s.settings ∧ (s.emptyStep had).tb = s.tb ∧ (s.emptyStep had).mark = s.mark ∧
    (s.emptyStep had).link = s.link ∧ (s.emptyStep had).roster = s.roster ∧ (s.emptyStep had).consent = s.consent ∧
    (s.emptyStep had).table = s.table ∧ (s.emptyStep had).input = s.input ∧ (s.emptyStep had).port = s.port ∧
    (s.emptyStep had).ram = s.ram ∧ (s.emptyStep had).out = s.out ∧ (s.emptyStep had).loader = s.loader ∧
    (s.emptyStep had).report = s.report ∧ (s.emptyStep had).transit = s.transit ∧ (s.emptyStep had).free = s.free ∧
    (s.emptyStep had).pending = s.pending := by
  unfold State.emptyStep; split <;> simp

@[simp] theorem State.silenceStep_frame (s : State) :
    (s.silenceStep).settings = s.settings ∧ (s.silenceStep).tb = s.tb ∧ (s.silenceStep).mark = s.mark ∧
    (s.silenceStep).link = s.link ∧ (s.silenceStep).roster = s.roster ∧ (s.silenceStep).table = s.table ∧
    (s.silenceStep).input = s.input ∧ (s.silenceStep).port = s.port ∧ (s.silenceStep).ram = s.ram ∧
    (s.silenceStep).out = s.out ∧ (s.silenceStep).loader = s.loader ∧ (s.silenceStep).report = s.report ∧
    (s.silenceStep).transit = s.transit ∧ (s.silenceStep).free = s.free ∧ (s.silenceStep).pending = s.pending := by
  unfold State.silenceStep; dsimp only; split <;> simp

@[simp] theorem State.memberFrameStart_frame (s : State) (cause : FrameCause) (handed : Option Nat) (had : Bool) :
    (s.memberFrameStart cause handed had).settings = s.settings ∧
    (s.memberFrameStart cause handed had).table = s.table ∧ (s.memberFrameStart cause handed had).input = s.input ∧
    (s.memberFrameStart cause handed had).port = s.port ∧ (s.memberFrameStart cause handed had).ram = s.ram ∧
    (s.memberFrameStart cause handed had).out = s.out ∧ (s.memberFrameStart cause handed had).loader = s.loader ∧
    (s.memberFrameStart cause handed had).report = s.report ∧
    (s.memberFrameStart cause handed had).transit = s.transit ∧ (s.memberFrameStart cause handed had).free = s.free ∧
    (s.memberFrameStart cause handed had).pending = s.pending := by
  unfold State.memberFrameStart; split <;> simp

@[simp] theorem State.joinerRollCall_frame (s : State) (r : Results) :
    (s.joinerRollCall r).settings = s.settings ∧ (s.joinerRollCall r).mark = s.mark ∧
    (s.joinerRollCall r).link = s.link ∧ (s.joinerRollCall r).roster = s.roster ∧
    (s.joinerRollCall r).consent = s.consent ∧ (s.joinerRollCall r).table = s.table ∧
    (s.joinerRollCall r).input = s.input ∧ (s.joinerRollCall r).port = s.port ∧ (s.joinerRollCall r).ram = s.ram ∧
    (s.joinerRollCall r).out = s.out ∧ (s.joinerRollCall r).loader = s.loader ∧
    (s.joinerRollCall r).report = s.report ∧ (s.joinerRollCall r).transit = s.transit ∧
    (s.joinerRollCall r).free = s.free ∧ (s.joinerRollCall r).pending = s.pending := by
  simp [State.joinerRollCall]

@[simp] theorem State.claimLostCheck_frame (s : State) :
    (s.claimLostCheck).settings = s.settings ∧ (s.claimLostCheck).tb = s.tb ∧ (s.claimLostCheck).mark = s.mark ∧
    (s.claimLostCheck).link = s.link ∧ (s.claimLostCheck).roster = s.roster ∧ (s.claimLostCheck).table = s.table ∧
    (s.claimLostCheck).input = s.input ∧ (s.claimLostCheck).port = s.port ∧ (s.claimLostCheck).ram = s.ram ∧
    (s.claimLostCheck).out = s.out ∧ (s.claimLostCheck).loader = s.loader ∧ (s.claimLostCheck).report = s.report ∧
    (s.claimLostCheck).transit = s.transit ∧ (s.claimLostCheck).free = s.free ∧ (s.claimLostCheck).pending = s.pending := by
  unfold State.claimLostCheck; split <;> simp

@[simp] theorem State.unheardCheck_frame (s : State) (r : Results) :
    (s.unheardCheck r).settings = s.settings ∧ (s.unheardCheck r).tb = s.tb ∧ (s.unheardCheck r).mark = s.mark ∧
    (s.unheardCheck r).link = s.link ∧ (s.unheardCheck r).roster = s.roster ∧ (s.unheardCheck r).table = s.table ∧
    (s.unheardCheck r).input = s.input ∧ (s.unheardCheck r).port = s.port ∧ (s.unheardCheck r).ram = s.ram ∧
    (s.unheardCheck r).out = s.out ∧ (s.unheardCheck r).loader = s.loader ∧ (s.unheardCheck r).report = s.report ∧
    (s.unheardCheck r).transit = s.transit ∧ (s.unheardCheck r).free = s.free ∧ (s.unheardCheck r).pending = s.pending := by
  unfold State.unheardCheck; dsimp only; split <;> simp

@[simp] theorem State.outOfStepCheck_frame (s : State) (r : Results) :
    (s.outOfStepCheck r).settings = s.settings ∧ (s.outOfStepCheck r).tb = s.tb ∧
    (s.outOfStepCheck r).mark = s.mark ∧ (s.outOfStepCheck r).link = s.link ∧
    (s.outOfStepCheck r).roster = s.roster ∧ (s.outOfStepCheck r).table = s.table ∧
    (s.outOfStepCheck r).input = s.input ∧ (s.outOfStepCheck r).port = s.port ∧ (s.outOfStepCheck r).ram = s.ram ∧
    (s.outOfStepCheck r).out = s.out ∧ (s.outOfStepCheck r).loader = s.loader ∧
    (s.outOfStepCheck r).report = s.report ∧ (s.outOfStepCheck r).transit = s.transit ∧
    (s.outOfStepCheck r).free = s.free ∧ (s.outOfStepCheck r).pending = s.pending := by
  unfold State.outOfStepCheck; split <;> simp

@[simp] theorem State.memberRollCall_frame (s : State) (r : Results) :
    (s.memberRollCall r).settings = s.settings ∧ (s.memberRollCall r).tb = s.tb ∧
    (s.memberRollCall r).mark = s.mark ∧ (s.memberRollCall r).link = s.link ∧
    (s.memberRollCall r).roster = s.roster ∧ (s.memberRollCall r).table = s.table ∧
    (s.memberRollCall r).input = s.input ∧ (s.memberRollCall r).port = s.port ∧ (s.memberRollCall r).ram = s.ram ∧
    (s.memberRollCall r).out = s.out ∧ (s.memberRollCall r).loader = s.loader ∧
    (s.memberRollCall r).report = s.report ∧ (s.memberRollCall r).transit = s.transit ∧
    (s.memberRollCall r).free = s.free ∧ (s.memberRollCall r).pending = s.pending := by
  simp [State.memberRollCall]

@[simp] theorem State.membershipRollCall_frame (s : State) (r : Results) :
    (s.membershipRollCall r).settings = s.settings ∧ (s.membershipRollCall r).mark = s.mark ∧
    (s.membershipRollCall r).link = s.link ∧ (s.membershipRollCall r).roster = s.roster ∧
    (s.membershipRollCall r).table = s.table ∧ (s.membershipRollCall r).input = s.input ∧
    (s.membershipRollCall r).port = s.port ∧ (s.membershipRollCall r).ram = s.ram ∧
    (s.membershipRollCall r).out = s.out ∧ (s.membershipRollCall r).loader = s.loader ∧
    (s.membershipRollCall r).report = s.report ∧ (s.membershipRollCall r).transit = s.transit ∧
    (s.membershipRollCall r).free = s.free ∧ (s.membershipRollCall r).pending = s.pending := by
  unfold State.membershipRollCall; (repeat' split) <;> simp

@[simp] theorem State.stayAtSwap_frame (s : State) :
    (s.stayAtSwap).settings = s.settings ∧ (s.stayAtSwap).tb = s.tb ∧ (s.stayAtSwap).mark = s.mark ∧
    (s.stayAtSwap).link = s.link ∧ (s.stayAtSwap).roster = s.roster ∧ (s.stayAtSwap).consent = s.consent ∧
    (s.stayAtSwap).member = s.member ∧ (s.stayAtSwap).input = s.input ∧ (s.stayAtSwap).port = s.port ∧
    (s.stayAtSwap).ram = s.ram ∧ (s.stayAtSwap).out = s.out ∧ (s.stayAtSwap).loader = s.loader ∧
    (s.stayAtSwap).report = s.report ∧ (s.stayAtSwap).transit = s.transit ∧ (s.stayAtSwap).free = s.free ∧
    (s.stayAtSwap).pending = s.pending := by
  unfold State.stayAtSwap; split <;> simp

@[simp] theorem State.withdrawAtSwap_frame (s : State) (cause : WithdrawalCause) :
    (s.withdrawAtSwap cause).settings = s.settings ∧ (s.withdrawAtSwap cause).tb = s.tb ∧
    (s.withdrawAtSwap cause).mark = s.mark ∧ (s.withdrawAtSwap cause).roster = s.roster ∧
    (s.withdrawAtSwap cause).input = s.input ∧ (s.withdrawAtSwap cause).port = s.port ∧
    (s.withdrawAtSwap cause).ram = s.ram ∧ (s.withdrawAtSwap cause).out = s.out ∧
    (s.withdrawAtSwap cause).loader = s.loader ∧ (s.withdrawAtSwap cause).transit = s.transit ∧
    (s.withdrawAtSwap cause).free = s.free ∧ (s.withdrawAtSwap cause).pending = s.pending := by
  simp [State.withdrawAtSwap]

@[simp] theorem State.joinAtSwap_frame (s : State) (target : Content) :
    (s.joinAtSwap target).settings = s.settings ∧ (s.joinAtSwap target).tb = s.tb ∧
    (s.joinAtSwap target).mark = s.mark ∧ (s.joinAtSwap target).link = s.link ∧
    (s.joinAtSwap target).roster = s.roster ∧ (s.joinAtSwap target).consent = s.consent ∧
    (s.joinAtSwap target).input = s.input ∧ (s.joinAtSwap target).port = s.port ∧ (s.joinAtSwap target).ram = s.ram ∧
    (s.joinAtSwap target).out = s.out ∧ (s.joinAtSwap target).loader = s.loader ∧
    (s.joinAtSwap target).transit = s.transit ∧ (s.joinAtSwap target).free = s.free ∧
    (s.joinAtSwap target).pending = s.pending := by
  simp [State.joinAtSwap]

@[simp] theorem State.foundAtSwap_frame (s : State) :
    (s.foundAtSwap).settings = s.settings ∧ (s.foundAtSwap).mark = s.mark ∧ (s.foundAtSwap).link = s.link ∧
    (s.foundAtSwap).roster = s.roster ∧ (s.foundAtSwap).consent = s.consent ∧ (s.foundAtSwap).table = s.table ∧
    (s.foundAtSwap).input = s.input ∧ (s.foundAtSwap).port = s.port ∧ (s.foundAtSwap).ram = s.ram ∧
    (s.foundAtSwap).out = s.out ∧ (s.foundAtSwap).loader = s.loader ∧ (s.foundAtSwap).transit = s.transit ∧
    (s.foundAtSwap).free = s.free ∧ (s.foundAtSwap).pending = s.pending := by
  simp [State.foundAtSwap]

@[simp] theorem State.actOnWord_frame (s : State) (w : SwapWord) :
    (s.actOnWord w).settings = s.settings ∧ (s.actOnWord w).mark = s.mark ∧ (s.actOnWord w).roster = s.roster ∧
    (s.actOnWord w).input = s.input ∧ (s.actOnWord w).port = s.port ∧ (s.actOnWord w).ram = s.ram ∧
    (s.actOnWord w).out = s.out ∧ (s.actOnWord w).loader = s.loader ∧ (s.actOnWord w).transit = s.transit ∧
    (s.actOnWord w).free = s.free ∧ (s.actOnWord w).pending = s.pending := by
  unfold State.actOnWord; split <;> simp

@[simp] theorem State.takeSwapLine_frame (s : State) :
    (s.takeSwapLine).settings = s.settings ∧ (s.takeSwapLine).mark = s.mark ∧ (s.takeSwapLine).roster = s.roster ∧
    (s.takeSwapLine).input = s.input ∧ (s.takeSwapLine).port = s.port ∧ (s.takeSwapLine).ram = s.ram ∧
    (s.takeSwapLine).out = s.out ∧ (s.takeSwapLine).loader = s.loader ∧ (s.takeSwapLine).transit = s.transit ∧
    (s.takeSwapLine).free = s.free ∧ (s.takeSwapLine).pending = s.pending := by
  simp [State.takeSwapLine]

@[simp] theorem State.takeOutcome_frame (s : State) (i : Nat) (o : SlotOutcome) (a : Option Announcement) :
    (s.takeOutcome i o a).settings = s.settings ∧ (s.takeOutcome i o a).tb = s.tb ∧
    (s.takeOutcome i o a).mark = s.mark ∧ (s.takeOutcome i o a).consent = s.consent ∧
    (s.takeOutcome i o a).member = s.member ∧ (s.takeOutcome i o a).table = s.table ∧
    (s.takeOutcome i o a).input = s.input ∧ (s.takeOutcome i o a).port = s.port ∧ (s.takeOutcome i o a).ram = s.ram ∧
    (s.takeOutcome i o a).out = s.out ∧ (s.takeOutcome i o a).loader = s.loader ∧
    (s.takeOutcome i o a).report = s.report ∧ (s.takeOutcome i o a).transit = s.transit ∧
    (s.takeOutcome i o a).free = s.free ∧ (s.takeOutcome i o a).pending = s.pending := by
  simp [State.takeOutcome]

@[simp] theorem State.endSlot_frame (s : State) (i : Nat) :
    (s.endSlot i).settings = s.settings ∧ (s.endSlot i).mark = s.mark ∧ (s.endSlot i).consent = s.consent ∧
    (s.endSlot i).member = s.member ∧ (s.endSlot i).table = s.table ∧ (s.endSlot i).input = s.input ∧
    (s.endSlot i).port = s.port ∧ (s.endSlot i).ram = s.ram ∧ (s.endSlot i).out = s.out ∧
    (s.endSlot i).loader = s.loader ∧ (s.endSlot i).report = s.report ∧ (s.endSlot i).transit = s.transit ∧
    (s.endSlot i).free = s.free ∧ (s.endSlot i).pending = s.pending := by
  unfold State.endSlot; split <;> simp

@[simp] theorem State.cutSlot_frame (s : State) :
    (s.cutSlot).settings = s.settings ∧ (s.cutSlot).mark = s.mark ∧ (s.cutSlot).consent = s.consent ∧
    (s.cutSlot).member = s.member ∧ (s.cutSlot).table = s.table ∧ (s.cutSlot).input = s.input ∧
    (s.cutSlot).port = s.port ∧ (s.cutSlot).ram = s.ram ∧ (s.cutSlot).out = s.out ∧ (s.cutSlot).loader = s.loader ∧
    (s.cutSlot).report = s.report ∧ (s.cutSlot).transit = s.transit ∧ (s.cutSlot).free = s.free ∧
    (s.cutSlot).pending = s.pending := by
  unfold State.cutSlot; (repeat' split) <;> simp

@[simp] theorem State.placeTurn_frame (s : State) :
    (s.placeTurn).settings = s.settings ∧ (s.placeTurn).tb = s.tb ∧ (s.placeTurn).mark = s.mark ∧
    (s.placeTurn).link = s.link ∧ (s.placeTurn).roster = s.roster ∧ (s.placeTurn).consent = s.consent ∧
    (s.placeTurn).member = s.member ∧ (s.placeTurn).table = s.table ∧ (s.placeTurn).input = s.input ∧
    (s.placeTurn).port = s.port ∧ (s.placeTurn).ram = s.ram ∧ (s.placeTurn).loader = s.loader ∧
    (s.placeTurn).report = s.report ∧ (s.placeTurn).free = s.free ∧ (s.placeTurn).pending = s.pending := by
  unfold State.placeTurn; (repeat' split) <;> simp

@[simp] theorem State.endImageLine_frame (s : State) (j : Nat) :
    (s.endImageLine j).settings = s.settings ∧ (s.endImageLine j).tb = s.tb ∧ (s.endImageLine j).mark = s.mark ∧
    (s.endImageLine j).link = s.link ∧ (s.endImageLine j).roster = s.roster ∧
    (s.endImageLine j).consent = s.consent ∧ (s.endImageLine j).member = s.member ∧
    (s.endImageLine j).table = s.table ∧ (s.endImageLine j).input = s.input ∧ (s.endImageLine j).port = s.port ∧
    (s.endImageLine j).ram = s.ram ∧ (s.endImageLine j).loader = s.loader ∧ (s.endImageLine j).report = s.report ∧
    (s.endImageLine j).free = s.free ∧ (s.endImageLine j).pending = s.pending := by
  simp [State.endImageLine]

@[simp] theorem State.cutImageLine_frame (s : State) :
    (s.cutImageLine).settings = s.settings ∧ (s.cutImageLine).mark = s.mark ∧ (s.cutImageLine).link = s.link ∧
    (s.cutImageLine).roster = s.roster ∧ (s.cutImageLine).consent = s.consent ∧ (s.cutImageLine).member = s.member ∧
    (s.cutImageLine).table = s.table ∧ (s.cutImageLine).input = s.input ∧ (s.cutImageLine).port = s.port ∧
    (s.cutImageLine).ram = s.ram ∧ (s.cutImageLine).loader = s.loader ∧ (s.cutImageLine).report = s.report ∧
    (s.cutImageLine).free = s.free ∧ (s.cutImageLine).pending = s.pending := by
  unfold State.cutImageLine; split <;> simp

@[simp] theorem State.latchFrame_frame (s : State) :
    (s.latchFrame).settings = s.settings ∧ (s.latchFrame).tb = s.tb ∧ (s.latchFrame).mark = s.mark ∧
    (s.latchFrame).link = s.link ∧ (s.latchFrame).roster = s.roster ∧ (s.latchFrame).consent = s.consent ∧
    (s.latchFrame).member = s.member ∧ (s.latchFrame).table = s.table ∧ (s.latchFrame).input = s.input ∧
    (s.latchFrame).port = s.port ∧ (s.latchFrame).ram = s.ram ∧ (s.latchFrame).loader = s.loader ∧
    (s.latchFrame).report = s.report ∧ (s.latchFrame).free = s.free ∧ (s.latchFrame).pending = s.pending := by
  simp [State.latchFrame]

@[simp] theorem State.dueColumn_frame (s : State) (j p : Nat) :
    (s.dueColumn j p).settings = s.settings ∧ (s.dueColumn j p).tb = s.tb ∧ (s.dueColumn j p).mark = s.mark ∧
    (s.dueColumn j p).link = s.link ∧ (s.dueColumn j p).roster = s.roster ∧ (s.dueColumn j p).consent = s.consent ∧
    (s.dueColumn j p).member = s.member ∧ (s.dueColumn j p).table = s.table ∧ (s.dueColumn j p).input = s.input ∧
    (s.dueColumn j p).port = s.port ∧ (s.dueColumn j p).ram = s.ram ∧ (s.dueColumn j p).loader = s.loader ∧
    (s.dueColumn j p).report = s.report ∧ (s.dueColumn j p).free = s.free ∧ (s.dueColumn j p).pending = s.pending := by
  unfold State.dueColumn; split <;> simp

@[simp] theorem State.reportMarkLost_frame (s : State) (reached : Bool) :
    (s.reportMarkLost reached).settings = s.settings ∧ (s.reportMarkLost reached).tb = s.tb ∧
    (s.reportMarkLost reached).mark = s.mark ∧ (s.reportMarkLost reached).link = s.link ∧
    (s.reportMarkLost reached).roster = s.roster ∧ (s.reportMarkLost reached).consent = s.consent ∧
    (s.reportMarkLost reached).member = s.member ∧ (s.reportMarkLost reached).table = s.table ∧
    (s.reportMarkLost reached).input = s.input ∧ (s.reportMarkLost reached).port = s.port ∧
    (s.reportMarkLost reached).ram = s.ram ∧ (s.reportMarkLost reached).out = s.out ∧
    (s.reportMarkLost reached).loader = s.loader ∧ (s.reportMarkLost reached).transit = s.transit ∧
    (s.reportMarkLost reached).free = s.free ∧ (s.reportMarkLost reached).pending = s.pending := by
  unfold State.reportMarkLost; split <;> simp

@[simp] theorem State.takeSilence_frame (s : State) (reached : Bool) :
    (s.takeSilence reached).settings = s.settings ∧ (s.takeSilence reached).link = s.link ∧
    (s.takeSilence reached).roster = s.roster ∧ (s.takeSilence reached).consent = s.consent ∧
    (s.takeSilence reached).table = s.table ∧ (s.takeSilence reached).input = s.input ∧
    (s.takeSilence reached).port = s.port ∧ (s.takeSilence reached).ram = s.ram ∧
    (s.takeSilence reached).out = s.out ∧ (s.takeSilence reached).loader = s.loader ∧
    (s.takeSilence reached).transit = s.transit ∧ (s.takeSilence reached).free = s.free ∧
    (s.takeSilence reached).pending = s.pending := by
  unfold State.takeSilence; split <;> simp

@[simp] theorem State.openFrame_frame (s : State) (cause : FrameCause) (ended : TimebaseState) :
    (s.openFrame cause ended).settings = s.settings ∧ (s.openFrame cause ended).member = s.member ∧
    (s.openFrame cause ended).table = s.table ∧ (s.openFrame cause ended).input = s.input ∧
    (s.openFrame cause ended).port = s.port ∧ (s.openFrame cause ended).ram = s.ram ∧
    (s.openFrame cause ended).out = s.out ∧ (s.openFrame cause ended).loader = s.loader ∧
    (s.openFrame cause ended).report = s.report ∧ (s.openFrame cause ended).free = s.free ∧
    (s.openFrame cause ended).pending = s.pending := by
  simp [State.openFrame]

@[simp] theorem State.markFrameStart_frame (s : State) (cause : FrameCause) (ended : TimebaseState) :
    (s.markFrameStart cause ended).settings = s.settings ∧ (s.markFrameStart cause ended).table = s.table ∧
    (s.markFrameStart cause ended).input = s.input ∧ (s.markFrameStart cause ended).port = s.port ∧
    (s.markFrameStart cause ended).ram = s.ram ∧ (s.markFrameStart cause ended).out = s.out ∧
    (s.markFrameStart cause ended).loader = s.loader ∧ (s.markFrameStart cause ended).free = s.free ∧
    (s.markFrameStart cause ended).pending = s.pending := by
  simp [State.markFrameStart]

@[simp] theorem State.frameStart_frame (s : State) (cause : FrameCause) (ended : TimebaseState) :
    (s.frameStart cause ended).settings = s.settings ∧ (s.frameStart cause ended).table = s.table ∧
    (s.frameStart cause ended).input = s.input ∧ (s.frameStart cause ended).port = s.port ∧
    (s.frameStart cause ended).ram = s.ram ∧ (s.frameStart cause ended).loader = s.loader ∧
    (s.frameStart cause ended).free = s.free ∧ (s.frameStart cause ended).pending = s.pending := by
  simp [State.frameStart]

@[simp] theorem State.naturalFrameStart_frame (s : State) :
    (s.naturalFrameStart).settings = s.settings ∧ (s.naturalFrameStart).table = s.table ∧
    (s.naturalFrameStart).input = s.input ∧ (s.naturalFrameStart).port = s.port ∧ (s.naturalFrameStart).ram = s.ram ∧
    (s.naturalFrameStart).loader = s.loader ∧ (s.naturalFrameStart).free = s.free ∧
    (s.naturalFrameStart).pending = s.pending := by
  unfold State.naturalFrameStart; split <;> simp

@[simp] theorem State.reload_frame (s : State) (track : Bool) :
    (s.reload track).settings = s.settings ∧ (s.reload track).table = s.table ∧ (s.reload track).input = s.input ∧
    (s.reload track).port = s.port ∧ (s.reload track).ram = s.ram ∧ (s.reload track).loader = s.loader ∧
    (s.reload track).free = s.free ∧ (s.reload track).pending = s.pending := by
  unfold State.reload; split <;> simp

@[simp] theorem State.seekEdge_frame (s : State) (ln px : Nat) :
    (s.seekEdge ln px).settings = s.settings ∧ (s.seekEdge ln px).table = s.table ∧
    (s.seekEdge ln px).input = s.input ∧ (s.seekEdge ln px).port = s.port ∧ (s.seekEdge ln px).ram = s.ram ∧
    (s.seekEdge ln px).loader = s.loader ∧ (s.seekEdge ln px).free = s.free ∧ (s.seekEdge ln px).pending = s.pending := by
  unfold State.seekEdge; split <;> simp

@[simp] theorem State.silenceEdge_frame (s : State) :
    (s.silenceEdge).settings = s.settings ∧ (s.silenceEdge).link = s.link ∧
    (s.silenceEdge).roster = s.roster ∧ (s.silenceEdge).consent = s.consent ∧
    (s.silenceEdge).table = s.table ∧ (s.silenceEdge).input = s.input ∧ (s.silenceEdge).port = s.port ∧
    (s.silenceEdge).ram = s.ram ∧ (s.silenceEdge).out = s.out ∧ (s.silenceEdge).loader = s.loader ∧
    (s.silenceEdge).transit = s.transit ∧ (s.silenceEdge).free = s.free ∧ (s.silenceEdge).pending = s.pending := by
  simp [State.silenceEdge]

@[simp] theorem State.onTimeEdge_frame (s : State) (ln px : Nat) :
    (s.onTimeEdge ln px).settings = s.settings ∧ (s.onTimeEdge ln px).tb = s.tb ∧
    (s.onTimeEdge ln px).link = s.link ∧ (s.onTimeEdge ln px).roster = s.roster ∧
    (s.onTimeEdge ln px).consent = s.consent ∧ (s.onTimeEdge ln px).member = s.member ∧
    (s.onTimeEdge ln px).table = s.table ∧ (s.onTimeEdge ln px).input = s.input ∧
    (s.onTimeEdge ln px).port = s.port ∧ (s.onTimeEdge ln px).ram = s.ram ∧ (s.onTimeEdge ln px).out = s.out ∧
    (s.onTimeEdge ln px).loader = s.loader ∧ (s.onTimeEdge ln px).report = s.report ∧
    (s.onTimeEdge ln px).transit = s.transit ∧ (s.onTimeEdge ln px).free = s.free ∧
    (s.onTimeEdge ln px).pending = s.pending := by
  simp [State.onTimeEdge]

@[simp] theorem State.catchEdge_frame (s : State) (ln px : Nat) :
    (s.catchEdge ln px).settings = s.settings ∧ (s.catchEdge ln px).table = s.table ∧
    (s.catchEdge ln px).input = s.input ∧ (s.catchEdge ln px).port = s.port ∧ (s.catchEdge ln px).ram = s.ram ∧
    (s.catchEdge ln px).loader = s.loader ∧ (s.catchEdge ln px).free = s.free ∧
    (s.catchEdge ln px).pending = s.pending := by
  simp [State.catchEdge]

@[simp] theorem State.strayEdge_frame (s : State) (ln px : Nat) :
    (s.strayEdge ln px).settings = s.settings ∧ (s.strayEdge ln px).table = s.table ∧
    (s.strayEdge ln px).input = s.input ∧ (s.strayEdge ln px).port = s.port ∧ (s.strayEdge ln px).ram = s.ram ∧
    (s.strayEdge ln px).loader = s.loader ∧ (s.strayEdge ln px).free = s.free ∧
    (s.strayEdge ln px).pending = s.pending := by
  unfold State.strayEdge; split <;> simp

@[simp] theorem State.trackingEdge_frame (s : State) (ln px : Nat) :
    (s.trackingEdge ln px).settings = s.settings ∧ (s.trackingEdge ln px).table = s.table ∧
    (s.trackingEdge ln px).input = s.input ∧ (s.trackingEdge ln px).port = s.port ∧
    (s.trackingEdge ln px).ram = s.ram ∧ (s.trackingEdge ln px).loader = s.loader ∧
    (s.trackingEdge ln px).free = s.free ∧ (s.trackingEdge ln px).pending = s.pending := by
  unfold State.trackingEdge; (repeat' split) <;> simp

@[simp] theorem State.edgeHere_frame (s : State) :
    (s.edgeHere).settings = s.settings ∧ (s.edgeHere).table = s.table ∧ (s.edgeHere).input = s.input ∧
    (s.edgeHere).port = s.port ∧ (s.edgeHere).ram = s.ram ∧ (s.edgeHere).loader = s.loader ∧
    (s.edgeHere).free = s.free ∧ (s.edgeHere).pending = s.pending := by
  unfold State.edgeHere; (repeat' split) <;> simp

@[simp] theorem State.edgeAt_frame (s : State) (ln px : Nat) :
    (s.edgeAt ln px).settings = s.settings ∧ (s.edgeAt ln px).table = s.table ∧ (s.edgeAt ln px).input = s.input ∧
    (s.edgeAt ln px).port = s.port ∧ (s.edgeAt ln px).ram = s.ram ∧ (s.edgeAt ln px).loader = s.loader ∧
    (s.edgeAt ln px).free = s.free ∧ (s.edgeAt ln px).pending = s.pending := by
  simp [State.edgeAt]

@[simp] theorem State.edgeBeforeWrap_frame (s : State) :
    (s.edgeBeforeWrap).settings = s.settings ∧ (s.edgeBeforeWrap).table = s.table ∧
    (s.edgeBeforeWrap).input = s.input ∧ (s.edgeBeforeWrap).port = s.port ∧ (s.edgeBeforeWrap).ram = s.ram ∧
    (s.edgeBeforeWrap).loader = s.loader ∧ (s.edgeBeforeWrap).free = s.free ∧ (s.edgeBeforeWrap).pending = s.pending := by
  unfold State.edgeBeforeWrap; split <;> simp

@[simp] theorem State.takeEdge_frame (s : State) (time : EdgeTime) :
    (s.takeEdge time).settings = s.settings ∧ (s.takeEdge time).table = s.table ∧ (s.takeEdge time).input = s.input ∧
    (s.takeEdge time).port = s.port ∧ (s.takeEdge time).ram = s.ram ∧ (s.takeEdge time).loader = s.loader ∧
    (s.takeEdge time).free = s.free ∧ (s.takeEdge time).pending = s.pending := by
  unfold State.takeEdge; split <;> simp

@[simp] theorem State.frameStartWhen_frame (s : State) (met : Bool) :
    (s.frameStartWhen met).settings = s.settings ∧ (s.frameStartWhen met).table = s.table ∧
    (s.frameStartWhen met).input = s.input ∧ (s.frameStartWhen met).port = s.port ∧
    (s.frameStartWhen met).ram = s.ram ∧ (s.frameStartWhen met).loader = s.loader ∧
    (s.frameStartWhen met).free = s.free ∧ (s.frameStartWhen met).pending = s.pending := by
  unfold State.frameStartWhen; split <;> simp

@[simp] theorem State.lineStart_frame (s : State) (line : Nat) :
    (s.lineStart line).settings = s.settings ∧ (s.lineStart line).mark = s.mark ∧ (s.lineStart line).link = s.link ∧
    (s.lineStart line).roster = s.roster ∧ (s.lineStart line).consent = s.consent ∧
    (s.lineStart line).member = s.member ∧ (s.lineStart line).table = s.table ∧ (s.lineStart line).input = s.input ∧
    (s.lineStart line).port = s.port ∧ (s.lineStart line).ram = s.ram ∧ (s.lineStart line).out = s.out ∧
    (s.lineStart line).loader = s.loader ∧ (s.lineStart line).report = s.report ∧ (s.lineStart line).free = s.free ∧
    (s.lineStart line).pending = s.pending := by
  unfold State.lineStart; split <;> simp

@[simp] theorem State.catchZoneEntry_frame (s : State) :
    (s.catchZoneEntry).settings = s.settings ∧ (s.catchZoneEntry).link = s.link ∧
    (s.catchZoneEntry).roster = s.roster ∧ (s.catchZoneEntry).consent = s.consent ∧
    (s.catchZoneEntry).member = s.member ∧ (s.catchZoneEntry).table = s.table ∧ (s.catchZoneEntry).input = s.input ∧
    (s.catchZoneEntry).port = s.port ∧ (s.catchZoneEntry).ram = s.ram ∧ (s.catchZoneEntry).out = s.out ∧
    (s.catchZoneEntry).loader = s.loader ∧ (s.catchZoneEntry).report = s.report ∧
    (s.catchZoneEntry).transit = s.transit ∧ (s.catchZoneEntry).free = s.free ∧ (s.catchZoneEntry).pending = s.pending := by
  simp [State.catchZoneEntry]

@[simp] theorem State.openReceiver_frame (s : State) :
    (s.openReceiver).settings = s.settings ∧ (s.openReceiver).tb = s.tb ∧ (s.openReceiver).mark = s.mark ∧
    (s.openReceiver).roster = s.roster ∧ (s.openReceiver).consent = s.consent ∧ (s.openReceiver).member = s.member ∧
    (s.openReceiver).table = s.table ∧ (s.openReceiver).input = s.input ∧ (s.openReceiver).port = s.port ∧
    (s.openReceiver).ram = s.ram ∧ (s.openReceiver).out = s.out ∧ (s.openReceiver).loader = s.loader ∧
    (s.openReceiver).report = s.report ∧ (s.openReceiver).transit = s.transit ∧ (s.openReceiver).free = s.free ∧
    (s.openReceiver).pending = s.pending := by
  unfold State.openReceiver; split <;> simp

@[simp] theorem State.openTransmitter_frame (s : State) (slot : Nat) :
    (s.openTransmitter slot).settings = s.settings ∧ (s.openTransmitter slot).tb = s.tb ∧
    (s.openTransmitter slot).mark = s.mark ∧ (s.openTransmitter slot).roster = s.roster ∧
    (s.openTransmitter slot).consent = s.consent ∧ (s.openTransmitter slot).member = s.member ∧
    (s.openTransmitter slot).table = s.table ∧ (s.openTransmitter slot).input = s.input ∧
    (s.openTransmitter slot).port = s.port ∧ (s.openTransmitter slot).ram = s.ram ∧
    (s.openTransmitter slot).out = s.out ∧ (s.openTransmitter slot).loader = s.loader ∧
    (s.openTransmitter slot).report = s.report ∧ (s.openTransmitter slot).transit = s.transit ∧
    (s.openTransmitter slot).free = s.free ∧ (s.openTransmitter slot).pending = s.pending := by
  unfold State.openTransmitter; (repeat' split) <;> simp

@[simp] theorem State.slotBegin_frame (s : State) (slot : Nat) :
    (s.slotBegin slot).settings = s.settings ∧ (s.slotBegin slot).mark = s.mark ∧
    (s.slotBegin slot).roster = s.roster ∧ (s.slotBegin slot).consent = s.consent ∧
    (s.slotBegin slot).member = s.member ∧ (s.slotBegin slot).table = s.table ∧ (s.slotBegin slot).input = s.input ∧
    (s.slotBegin slot).port = s.port ∧ (s.slotBegin slot).ram = s.ram ∧ (s.slotBegin slot).out = s.out ∧
    (s.slotBegin slot).loader = s.loader ∧ (s.slotBegin slot).report = s.report ∧
    (s.slotBegin slot).transit = s.transit ∧ (s.slotBegin slot).free = s.free ∧ (s.slotBegin slot).pending = s.pending := by
  unfold State.slotBegin; split <;> simp

@[simp] theorem State.moveInSlot_frame (s : State) (slot position : Nat) :
    (s.moveInSlot slot position).settings = s.settings ∧ (s.moveInSlot slot position).mark = s.mark ∧
    (s.moveInSlot slot position).link = s.link ∧ (s.moveInSlot slot position).roster = s.roster ∧
    (s.moveInSlot slot position).consent = s.consent ∧ (s.moveInSlot slot position).member = s.member ∧
    (s.moveInSlot slot position).table = s.table ∧ (s.moveInSlot slot position).input = s.input ∧
    (s.moveInSlot slot position).port = s.port ∧ (s.moveInSlot slot position).ram = s.ram ∧
    (s.moveInSlot slot position).out = s.out ∧ (s.moveInSlot slot position).loader = s.loader ∧
    (s.moveInSlot slot position).report = s.report ∧ (s.moveInSlot slot position).transit = s.transit ∧
    (s.moveInSlot slot position).free = s.free ∧ (s.moveInSlot slot position).pending = s.pending := by
  simp [State.moveInSlot]

@[simp] theorem State.placeTransmitter_frame (s : State) (slot cell : Nat) :
    (s.placeTransmitter slot cell).settings = s.settings ∧ (s.placeTransmitter slot cell).tb = s.tb ∧
    (s.placeTransmitter slot cell).mark = s.mark ∧ (s.placeTransmitter slot cell).roster = s.roster ∧
    (s.placeTransmitter slot cell).consent = s.consent ∧ (s.placeTransmitter slot cell).member = s.member ∧
    (s.placeTransmitter slot cell).table = s.table ∧ (s.placeTransmitter slot cell).input = s.input ∧
    (s.placeTransmitter slot cell).port = s.port ∧ (s.placeTransmitter slot cell).ram = s.ram ∧
    (s.placeTransmitter slot cell).out = s.out ∧ (s.placeTransmitter slot cell).loader = s.loader ∧
    (s.placeTransmitter slot cell).report = s.report ∧ (s.placeTransmitter slot cell).transit = s.transit ∧
    (s.placeTransmitter slot cell).free = s.free ∧ (s.placeTransmitter slot cell).pending = s.pending := by
  unfold State.placeTransmitter; split <;> simp

@[simp] theorem State.talkCell_frame (s : State) (cell : Nat) (samples : Samples) :
    (s.talkCell cell samples).settings = s.settings ∧ (s.talkCell cell samples).mark = s.mark ∧
    (s.talkCell cell samples).roster = s.roster ∧ (s.talkCell cell samples).consent = s.consent ∧
    (s.talkCell cell samples).member = s.member ∧ (s.talkCell cell samples).table = s.table ∧
    (s.talkCell cell samples).input = s.input ∧ (s.talkCell cell samples).port = s.port ∧
    (s.talkCell cell samples).ram = s.ram ∧ (s.talkCell cell samples).out = s.out ∧
    (s.talkCell cell samples).loader = s.loader ∧ (s.talkCell cell samples).report = s.report ∧
    (s.talkCell cell samples).transit = s.transit ∧ (s.talkCell cell samples).free = s.free ∧
    (s.talkCell cell samples).pending = s.pending := by
  unfold State.talkCell; (repeat' split) <;> simp

@[simp] theorem State.announceSent_frame (s : State) :
    (s.announceSent).settings = s.settings ∧ (s.announceSent).mark = s.mark ∧ (s.announceSent).roster = s.roster ∧
    (s.announceSent).consent = s.consent ∧ (s.announceSent).member = s.member ∧ (s.announceSent).table = s.table ∧
    (s.announceSent).input = s.input ∧ (s.announceSent).port = s.port ∧ (s.announceSent).ram = s.ram ∧
    (s.announceSent).out = s.out ∧ (s.announceSent).loader = s.loader ∧ (s.announceSent).report = s.report ∧
    (s.announceSent).transit = s.transit ∧ (s.announceSent).free = s.free ∧ (s.announceSent).pending = s.pending := by
  unfold State.announceSent; split <;> simp

@[simp] theorem State.slotEnd_frame (s : State) (slot : Nat) :
    (s.slotEnd slot).settings = s.settings ∧ (s.slotEnd slot).mark = s.mark ∧ (s.slotEnd slot).consent = s.consent ∧
    (s.slotEnd slot).member = s.member ∧ (s.slotEnd slot).table = s.table ∧ (s.slotEnd slot).input = s.input ∧
    (s.slotEnd slot).port = s.port ∧ (s.slotEnd slot).ram = s.ram ∧ (s.slotEnd slot).out = s.out ∧
    (s.slotEnd slot).loader = s.loader ∧ (s.slotEnd slot).report = s.report ∧ (s.slotEnd slot).transit = s.transit ∧
    (s.slotEnd slot).free = s.free ∧ (s.slotEnd slot).pending = s.pending := by
  unfold State.slotEnd; split <;> simp

@[simp] theorem State.rollCallCell_frame (s : State) :
    (s.rollCallCell).settings = s.settings ∧ (s.rollCallCell).mark = s.mark ∧ (s.rollCallCell).roster = s.roster ∧
    (s.rollCallCell).consent = s.consent ∧ (s.rollCallCell).member = s.member ∧ (s.rollCallCell).table = s.table ∧
    (s.rollCallCell).input = s.input ∧ (s.rollCallCell).port = s.port ∧ (s.rollCallCell).ram = s.ram ∧
    (s.rollCallCell).out = s.out ∧ (s.rollCallCell).loader = s.loader ∧ (s.rollCallCell).report = s.report ∧
    (s.rollCallCell).transit = s.transit ∧ (s.rollCallCell).free = s.free ∧ (s.rollCallCell).pending = s.pending := by
  unfold State.rollCallCell; dsimp only; split <;> simp

@[simp] theorem State.rosterRollCall_frame (s : State) (levels : List Level) :
    (s.rosterRollCall levels).settings = s.settings ∧ (s.rosterRollCall levels).tb = s.tb ∧
    (s.rosterRollCall levels).mark = s.mark ∧ (s.rosterRollCall levels).consent = s.consent ∧
    (s.rosterRollCall levels).member = s.member ∧ (s.rosterRollCall levels).table = s.table ∧
    (s.rosterRollCall levels).input = s.input ∧ (s.rosterRollCall levels).port = s.port ∧
    (s.rosterRollCall levels).ram = s.ram ∧ (s.rosterRollCall levels).out = s.out ∧
    (s.rosterRollCall levels).loader = s.loader ∧ (s.rosterRollCall levels).report = s.report ∧
    (s.rosterRollCall levels).transit = s.transit ∧ (s.rosterRollCall levels).free = s.free ∧
    (s.rosterRollCall levels).pending = s.pending := by
  simp [State.rosterRollCall]

@[simp] theorem State.consentRollCall_frame (s : State) (r : Results) :
    (s.consentRollCall r).settings = s.settings ∧ (s.consentRollCall r).tb = s.tb ∧
    (s.consentRollCall r).mark = s.mark ∧ (s.consentRollCall r).link = s.link ∧
    (s.consentRollCall r).roster = s.roster ∧ (s.consentRollCall r).member = s.member ∧
    (s.consentRollCall r).table = s.table ∧ (s.consentRollCall r).input = s.input ∧
    (s.consentRollCall r).port = s.port ∧ (s.consentRollCall r).ram = s.ram ∧ (s.consentRollCall r).out = s.out ∧
    (s.consentRollCall r).loader = s.loader ∧ (s.consentRollCall r).report = s.report ∧
    (s.consentRollCall r).transit = s.transit ∧ (s.consentRollCall r).free = s.free ∧
    (s.consentRollCall r).pending = s.pending := by
  simp [State.consentRollCall]

@[simp] theorem State.rollCallWith_frame (s : State) (levels : List Level) :
    (s.rollCallWith levels).settings = s.settings ∧ (s.rollCallWith levels).mark = s.mark ∧
    (s.rollCallWith levels).table = s.table ∧ (s.rollCallWith levels).input = s.input ∧
    (s.rollCallWith levels).port = s.port ∧ (s.rollCallWith levels).ram = s.ram ∧
    (s.rollCallWith levels).out = s.out ∧ (s.rollCallWith levels).loader = s.loader ∧
    (s.rollCallWith levels).report = s.report ∧ (s.rollCallWith levels).transit = s.transit ∧
    (s.rollCallWith levels).free = s.free ∧ (s.rollCallWith levels).pending = s.pending := by
  unfold State.rollCallWith; dsimp only; split <;> simp

@[simp] theorem State.rollCallClose_frame (s : State) (cells : List Samples) :
    (s.rollCallClose cells).settings = s.settings ∧ (s.rollCallClose cells).mark = s.mark ∧
    (s.rollCallClose cells).table = s.table ∧ (s.rollCallClose cells).input = s.input ∧
    (s.rollCallClose cells).port = s.port ∧ (s.rollCallClose cells).ram = s.ram ∧
    (s.rollCallClose cells).out = s.out ∧ (s.rollCallClose cells).loader = s.loader ∧
    (s.rollCallClose cells).report = s.report ∧ (s.rollCallClose cells).transit = s.transit ∧
    (s.rollCallClose cells).free = s.free ∧ (s.rollCallClose cells).pending = s.pending := by
  unfold State.rollCallClose; dsimp only; (repeat' split) <;> simp

@[simp] theorem State.verdictLatch_frame (s : State) :
    (s.verdictLatch).settings = s.settings ∧ (s.verdictLatch).mark = s.mark ∧ (s.verdictLatch).roster = s.roster ∧
    (s.verdictLatch).consent = s.consent ∧ (s.verdictLatch).member = s.member ∧ (s.verdictLatch).table = s.table ∧
    (s.verdictLatch).input = s.input ∧ (s.verdictLatch).port = s.port ∧ (s.verdictLatch).ram = s.ram ∧
    (s.verdictLatch).out = s.out ∧ (s.verdictLatch).loader = s.loader ∧ (s.verdictLatch).report = s.report ∧
    (s.verdictLatch).transit = s.transit ∧ (s.verdictLatch).free = s.free ∧ (s.verdictLatch).pending = s.pending := by
  simp [State.verdictLatch]

@[simp] theorem State.recordVerdict_frame (s : State) (level : Level) :
    (s.recordVerdict level).settings = s.settings ∧ (s.recordVerdict level).tb = s.tb ∧
    (s.recordVerdict level).mark = s.mark ∧ (s.recordVerdict level).roster = s.roster ∧
    (s.recordVerdict level).table = s.table ∧ (s.recordVerdict level).input = s.input ∧
    (s.recordVerdict level).port = s.port ∧ (s.recordVerdict level).ram = s.ram ∧
    (s.recordVerdict level).out = s.out ∧ (s.recordVerdict level).loader = s.loader ∧
    (s.recordVerdict level).report = s.report ∧ (s.recordVerdict level).transit = s.transit ∧
    (s.recordVerdict level).free = s.free ∧ (s.recordVerdict level).pending = s.pending := by
  simp [State.recordVerdict]

@[simp] theorem State.receptionCheck_frame (s : State) :
    (s.receptionCheck).settings = s.settings ∧ (s.receptionCheck).tb = s.tb ∧ (s.receptionCheck).mark = s.mark ∧
    (s.receptionCheck).link = s.link ∧ (s.receptionCheck).roster = s.roster ∧
    (s.receptionCheck).consent = s.consent ∧ (s.receptionCheck).table = s.table ∧
    (s.receptionCheck).input = s.input ∧ (s.receptionCheck).port = s.port ∧ (s.receptionCheck).ram = s.ram ∧
    (s.receptionCheck).out = s.out ∧ (s.receptionCheck).loader = s.loader ∧ (s.receptionCheck).report = s.report ∧
    (s.receptionCheck).transit = s.transit ∧ (s.receptionCheck).free = s.free ∧ (s.receptionCheck).pending = s.pending := by
  unfold State.receptionCheck; split <;> simp

@[simp] theorem State.verdictSample_frame (s : State) (samples : Samples) :
    (s.verdictSample samples).settings = s.settings ∧ (s.verdictSample samples).mark = s.mark ∧
    (s.verdictSample samples).roster = s.roster ∧ (s.verdictSample samples).table = s.table ∧
    (s.verdictSample samples).input = s.input ∧ (s.verdictSample samples).port = s.port ∧
    (s.verdictSample samples).ram = s.ram ∧ (s.verdictSample samples).out = s.out ∧
    (s.verdictSample samples).loader = s.loader ∧ (s.verdictSample samples).report = s.report ∧
    (s.verdictSample samples).transit = s.transit ∧ (s.verdictSample samples).free = s.free ∧
    (s.verdictSample samples).pending = s.pending := by
  unfold State.verdictSample; dsimp only; split <;> simp

@[simp] theorem State.swapLine_frame (s : State) :
    (s.swapLine).settings = s.settings ∧ (s.swapLine).mark = s.mark ∧ (s.swapLine).roster = s.roster ∧
    (s.swapLine).input = s.input ∧ (s.swapLine).port = s.port ∧ (s.swapLine).ram = s.ram ∧ (s.swapLine).out = s.out ∧
    (s.swapLine).loader = s.loader ∧ (s.swapLine).transit = s.transit ∧ (s.swapLine).free = s.free ∧
    (s.swapLine).pending = s.pending := by
  simp [State.swapLine]

@[simp] theorem State.imageLineStart_frame (s : State) (line : Nat) :
    (s.imageLineStart line).settings = s.settings ∧ (s.imageLineStart line).mark = s.mark ∧
    (s.imageLineStart line).link = s.link ∧ (s.imageLineStart line).roster = s.roster ∧
    (s.imageLineStart line).consent = s.consent ∧ (s.imageLineStart line).member = s.member ∧
    (s.imageLineStart line).table = s.table ∧ (s.imageLineStart line).input = s.input ∧
    (s.imageLineStart line).port = s.port ∧ (s.imageLineStart line).ram = s.ram ∧
    (s.imageLineStart line).loader = s.loader ∧ (s.imageLineStart line).report = s.report ∧
    (s.imageLineStart line).free = s.free ∧ (s.imageLineStart line).pending = s.pending := by
  unfold State.imageLineStart; split <;> simp

@[simp] theorem State.imageLineEnd_frame (s : State) (line : Nat) :
    (s.imageLineEnd line).settings = s.settings ∧ (s.imageLineEnd line).mark = s.mark ∧
    (s.imageLineEnd line).link = s.link ∧ (s.imageLineEnd line).roster = s.roster ∧
    (s.imageLineEnd line).consent = s.consent ∧ (s.imageLineEnd line).member = s.member ∧
    (s.imageLineEnd line).table = s.table ∧ (s.imageLineEnd line).input = s.input ∧
    (s.imageLineEnd line).port = s.port ∧ (s.imageLineEnd line).ram = s.ram ∧
    (s.imageLineEnd line).loader = s.loader ∧ (s.imageLineEnd line).report = s.report ∧
    (s.imageLineEnd line).free = s.free ∧ (s.imageLineEnd line).pending = s.pending := by
  unfold State.imageLineEnd; split <;> simp

@[simp] theorem State.columnDue_frame (s : State) (line column : Nat) :
    (s.columnDue line column).settings = s.settings ∧ (s.columnDue line column).mark = s.mark ∧
    (s.columnDue line column).link = s.link ∧ (s.columnDue line column).roster = s.roster ∧
    (s.columnDue line column).consent = s.consent ∧ (s.columnDue line column).member = s.member ∧
    (s.columnDue line column).table = s.table ∧ (s.columnDue line column).input = s.input ∧
    (s.columnDue line column).port = s.port ∧ (s.columnDue line column).ram = s.ram ∧
    (s.columnDue line column).loader = s.loader ∧ (s.columnDue line column).report = s.report ∧
    (s.columnDue line column).free = s.free ∧ (s.columnDue line column).pending = s.pending := by
  unfold State.columnDue; split <;> simp

@[simp] theorem State.readerCompletion_frame (s : State) (d : ReadData) :
    (s.readerCompletion d).settings = s.settings ∧ (s.readerCompletion d).tb = s.tb ∧
    (s.readerCompletion d).mark = s.mark ∧ (s.readerCompletion d).link = s.link ∧
    (s.readerCompletion d).roster = s.roster ∧ (s.readerCompletion d).consent = s.consent ∧
    (s.readerCompletion d).member = s.member ∧ (s.readerCompletion d).table = s.table ∧
    (s.readerCompletion d).input = s.input ∧ (s.readerCompletion d).port = s.port ∧
    (s.readerCompletion d).ram = s.ram ∧ (s.readerCompletion d).loader = s.loader ∧
    (s.readerCompletion d).report = s.report ∧ (s.readerCompletion d).free = s.free ∧
    (s.readerCompletion d).pending = s.pending := by
  unfold State.readerCompletion State.whenNext; split <;> simp

@[simp] theorem State.discardFilling_frame (s : State) :
    (s.discardFilling).settings = s.settings ∧ (s.discardFilling).tb = s.tb ∧ (s.discardFilling).mark = s.mark ∧
    (s.discardFilling).link = s.link ∧ (s.discardFilling).roster = s.roster ∧
    (s.discardFilling).consent = s.consent ∧ (s.discardFilling).member = s.member ∧
    (s.discardFilling).input = s.input ∧ (s.discardFilling).port = s.port ∧ (s.discardFilling).ram = s.ram ∧
    (s.discardFilling).out = s.out ∧ (s.discardFilling).loader = s.loader ∧ (s.discardFilling).report = s.report ∧
    (s.discardFilling).free = s.free ∧ (s.discardFilling).pending = s.pending := by
  unfold State.discardFilling; split <;> simp

@[simp] theorem State.defect_frame (s : State) :
    (s.defect).settings = s.settings ∧ (s.defect).tb = s.tb ∧ (s.defect).mark = s.mark ∧ (s.defect).link = s.link ∧
    (s.defect).roster = s.roster ∧ (s.defect).consent = s.consent ∧ (s.defect).member = s.member ∧
    (s.defect).port = s.port ∧ (s.defect).ram = s.ram ∧ (s.defect).out = s.out ∧ (s.defect).loader = s.loader ∧
    (s.defect).report = s.report ∧ (s.defect).free = s.free ∧ (s.defect).pending = s.pending := by
  simp [State.defect]

@[simp] theorem State.strayWord_frame (s : State) :
    (s.strayWord).settings = s.settings ∧ (s.strayWord).tb = s.tb ∧ (s.strayWord).mark = s.mark ∧
    (s.strayWord).link = s.link ∧ (s.strayWord).roster = s.roster ∧ (s.strayWord).consent = s.consent ∧
    (s.strayWord).member = s.member ∧ (s.strayWord).table = s.table ∧ (s.strayWord).port = s.port ∧
    (s.strayWord).ram = s.ram ∧ (s.strayWord).out = s.out ∧ (s.strayWord).loader = s.loader ∧
    (s.strayWord).report = s.report ∧ (s.strayWord).transit = s.transit ∧ (s.strayWord).free = s.free ∧
    (s.strayWord).pending = s.pending := by
  simp [State.strayWord]

@[simp] theorem State.ignoreWord_frame (s : State) :
    (s.ignoreWord).settings = s.settings ∧ (s.ignoreWord).tb = s.tb ∧ (s.ignoreWord).mark = s.mark ∧
    (s.ignoreWord).link = s.link ∧ (s.ignoreWord).roster = s.roster ∧ (s.ignoreWord).consent = s.consent ∧
    (s.ignoreWord).member = s.member ∧ (s.ignoreWord).table = s.table ∧ (s.ignoreWord).port = s.port ∧
    (s.ignoreWord).ram = s.ram ∧ (s.ignoreWord).out = s.out ∧ (s.ignoreWord).loader = s.loader ∧
    (s.ignoreWord).report = s.report ∧ (s.ignoreWord).transit = s.transit ∧ (s.ignoreWord).free = s.free ∧
    (s.ignoreWord).pending = s.pending := by
  simp [State.ignoreWord]

@[simp] theorem State.abandonFrame_frame (s : State) :
    (s.abandonFrame).settings = s.settings ∧ (s.abandonFrame).tb = s.tb ∧ (s.abandonFrame).mark = s.mark ∧
    (s.abandonFrame).link = s.link ∧ (s.abandonFrame).roster = s.roster ∧ (s.abandonFrame).consent = s.consent ∧
    (s.abandonFrame).member = s.member ∧ (s.abandonFrame).port = s.port ∧ (s.abandonFrame).ram = s.ram ∧
    (s.abandonFrame).out = s.out ∧ (s.abandonFrame).loader = s.loader ∧ (s.abandonFrame).report = s.report ∧
    (s.abandonFrame).free = s.free ∧ (s.abandonFrame).pending = s.pending := by
  unfold State.abandonFrame; split <;> simp

@[simp] theorem State.requestAdmission_frame (s : State) (content : Content) :
    (s.requestAdmission content).settings = s.settings ∧ (s.requestAdmission content).tb = s.tb ∧
    (s.requestAdmission content).mark = s.mark ∧ (s.requestAdmission content).link = s.link ∧
    (s.requestAdmission content).roster = s.roster ∧ (s.requestAdmission content).consent = s.consent ∧
    (s.requestAdmission content).member = s.member ∧ (s.requestAdmission content).port = s.port ∧
    (s.requestAdmission content).ram = s.ram ∧ (s.requestAdmission content).out = s.out ∧
    (s.requestAdmission content).loader = s.loader ∧ (s.requestAdmission content).report = s.report ∧
    (s.requestAdmission content).transit = s.transit ∧ (s.requestAdmission content).free = s.free ∧
    (s.requestAdmission content).pending = s.pending := by
  simp [State.requestAdmission]

@[simp] theorem State.frameOpen_frame (s : State) (content : Content) :
    (s.frameOpen content).settings = s.settings ∧ (s.frameOpen content).tb = s.tb ∧
    (s.frameOpen content).mark = s.mark ∧ (s.frameOpen content).link = s.link ∧
    (s.frameOpen content).roster = s.roster ∧ (s.frameOpen content).consent = s.consent ∧
    (s.frameOpen content).member = s.member ∧ (s.frameOpen content).port = s.port ∧
    (s.frameOpen content).ram = s.ram ∧ (s.frameOpen content).out = s.out ∧ (s.frameOpen content).loader = s.loader ∧
    (s.frameOpen content).report = s.report ∧ (s.frameOpen content).free = s.free ∧
    (s.frameOpen content).pending = s.pending := by
  simp [State.frameOpen]

@[simp] theorem State.honourFlags_frame (s : State) (payload : BitVec 16) :
    (s.honourFlags payload).settings = s.settings ∧ (s.honourFlags payload).tb = s.tb ∧
    (s.honourFlags payload).mark = s.mark ∧ (s.honourFlags payload).link = s.link ∧
    (s.honourFlags payload).roster = s.roster ∧ (s.honourFlags payload).consent = s.consent ∧
    (s.honourFlags payload).member = s.member ∧ (s.honourFlags payload).table = s.table ∧
    (s.honourFlags payload).port = s.port ∧ (s.honourFlags payload).ram = s.ram ∧
    (s.honourFlags payload).out = s.out ∧ (s.honourFlags payload).loader = s.loader ∧
    (s.honourFlags payload).report = s.report ∧ (s.honourFlags payload).free = s.free ∧
    (s.honourFlags payload).pending = s.pending := by
  simp [State.honourFlags]

@[simp] theorem State.frameFlags_frame (s : State) (payload : BitVec 16) :
    (s.frameFlags payload).settings = s.settings ∧ (s.frameFlags payload).tb = s.tb ∧
    (s.frameFlags payload).mark = s.mark ∧ (s.frameFlags payload).link = s.link ∧
    (s.frameFlags payload).roster = s.roster ∧ (s.frameFlags payload).consent = s.consent ∧
    (s.frameFlags payload).member = s.member ∧ (s.frameFlags payload).port = s.port ∧
    (s.frameFlags payload).ram = s.ram ∧ (s.frameFlags payload).out = s.out ∧
    (s.frameFlags payload).loader = s.loader ∧ (s.frameFlags payload).report = s.report ∧
    (s.frameFlags payload).free = s.free ∧ (s.frameFlags payload).pending = s.pending := by
  unfold State.frameFlags; (repeat' split) <;> simp

@[simp] theorem State.openLine_frame (s : State) (index : BitVec 16) :
    (s.openLine index).settings = s.settings ∧ (s.openLine index).tb = s.tb ∧ (s.openLine index).mark = s.mark ∧
    (s.openLine index).link = s.link ∧ (s.openLine index).roster = s.roster ∧
    (s.openLine index).consent = s.consent ∧ (s.openLine index).member = s.member ∧
    (s.openLine index).port = s.port ∧ (s.openLine index).ram = s.ram ∧ (s.openLine index).out = s.out ∧
    (s.openLine index).loader = s.loader ∧ (s.openLine index).report = s.report ∧ (s.openLine index).free = s.free ∧
    (s.openLine index).pending = s.pending := by
  unfold State.openLine; (repeat' split) <;> simp

@[simp] theorem State.lineOpen_frame (s : State) (index : BitVec 16) :
    (s.lineOpen index).settings = s.settings ∧ (s.lineOpen index).tb = s.tb ∧ (s.lineOpen index).mark = s.mark ∧
    (s.lineOpen index).link = s.link ∧ (s.lineOpen index).roster = s.roster ∧
    (s.lineOpen index).consent = s.consent ∧ (s.lineOpen index).member = s.member ∧
    (s.lineOpen index).port = s.port ∧ (s.lineOpen index).ram = s.ram ∧ (s.lineOpen index).out = s.out ∧
    (s.lineOpen index).loader = s.loader ∧ (s.lineOpen index).report = s.report ∧ (s.lineOpen index).free = s.free ∧
    (s.lineOpen index).pending = s.pending := by
  unfold State.lineOpen; split <;> simp

@[simp] theorem State.completeLine_frame (s : State) :
    (s.completeLine).settings = s.settings ∧ (s.completeLine).tb = s.tb ∧ (s.completeLine).mark = s.mark ∧
    (s.completeLine).link = s.link ∧ (s.completeLine).roster = s.roster ∧ (s.completeLine).consent = s.consent ∧
    (s.completeLine).member = s.member ∧ (s.completeLine).table = s.table ∧ (s.completeLine).port = s.port ∧
    (s.completeLine).ram = s.ram ∧ (s.completeLine).out = s.out ∧ (s.completeLine).loader = s.loader ∧
    (s.completeLine).report = s.report ∧ (s.completeLine).free = s.free ∧ (s.completeLine).pending = s.pending := by
  simp [State.completeLine]

@[simp] theorem State.storePixel_frame (s : State) (colour : Colour) :
    (s.storePixel colour).settings = s.settings ∧ (s.storePixel colour).tb = s.tb ∧
    (s.storePixel colour).mark = s.mark ∧ (s.storePixel colour).link = s.link ∧
    (s.storePixel colour).roster = s.roster ∧ (s.storePixel colour).consent = s.consent ∧
    (s.storePixel colour).member = s.member ∧ (s.storePixel colour).port = s.port ∧
    (s.storePixel colour).ram = s.ram ∧ (s.storePixel colour).out = s.out ∧ (s.storePixel colour).loader = s.loader ∧
    (s.storePixel colour).report = s.report ∧ (s.storePixel colour).free = s.free ∧
    (s.storePixel colour).pending = s.pending := by
  unfold State.storePixel; (repeat' split) <;> simp

@[simp] theorem State.pixelWord_frame (s : State) (colour : Colour) :
    (s.pixelWord colour).settings = s.settings ∧ (s.pixelWord colour).tb = s.tb ∧
    (s.pixelWord colour).mark = s.mark ∧ (s.pixelWord colour).link = s.link ∧
    (s.pixelWord colour).roster = s.roster ∧ (s.pixelWord colour).consent = s.consent ∧
    (s.pixelWord colour).member = s.member ∧ (s.pixelWord colour).port = s.port ∧ (s.pixelWord colour).ram = s.ram ∧
    (s.pixelWord colour).out = s.out ∧ (s.pixelWord colour).loader = s.loader ∧
    (s.pixelWord colour).report = s.report ∧ (s.pixelWord colour).free = s.free ∧
    (s.pixelWord colour).pending = s.pending := by
  unfold State.pixelWord; split <;> simp

@[simp] theorem State.closeFrame_frame (s : State) (count : BitVec 16) :
    (s.closeFrame count).settings = s.settings ∧ (s.closeFrame count).tb = s.tb ∧
    (s.closeFrame count).mark = s.mark ∧ (s.closeFrame count).link = s.link ∧
    (s.closeFrame count).roster = s.roster ∧ (s.closeFrame count).consent = s.consent ∧
    (s.closeFrame count).member = s.member ∧ (s.closeFrame count).port = s.port ∧ (s.closeFrame count).ram = s.ram ∧
    (s.closeFrame count).out = s.out ∧ (s.closeFrame count).loader = s.loader ∧
    (s.closeFrame count).report = s.report ∧ (s.closeFrame count).free = s.free ∧
    (s.closeFrame count).pending = s.pending := by
  unfold State.closeFrame; split <;> simp

@[simp] theorem State.frameClose_frame (s : State) (count : BitVec 16) :
    (s.frameClose count).settings = s.settings ∧ (s.frameClose count).tb = s.tb ∧
    (s.frameClose count).mark = s.mark ∧ (s.frameClose count).link = s.link ∧
    (s.frameClose count).roster = s.roster ∧ (s.frameClose count).consent = s.consent ∧
    (s.frameClose count).member = s.member ∧ (s.frameClose count).port = s.port ∧ (s.frameClose count).ram = s.ram ∧
    (s.frameClose count).out = s.out ∧ (s.frameClose count).loader = s.loader ∧
    (s.frameClose count).report = s.report ∧ (s.frameClose count).free = s.free ∧
    (s.frameClose count).pending = s.pending := by
  unfold State.frameClose; split <;> simp

@[simp] theorem State.damagedWord_frame (s : State) :
    (s.damagedWord).settings = s.settings ∧ (s.damagedWord).tb = s.tb ∧ (s.damagedWord).mark = s.mark ∧
    (s.damagedWord).link = s.link ∧ (s.damagedWord).roster = s.roster ∧ (s.damagedWord).consent = s.consent ∧
    (s.damagedWord).member = s.member ∧ (s.damagedWord).port = s.port ∧ (s.damagedWord).ram = s.ram ∧
    (s.damagedWord).out = s.out ∧ (s.damagedWord).loader = s.loader ∧ (s.damagedWord).report = s.report ∧
    (s.damagedWord).free = s.free ∧ (s.damagedWord).pending = s.pending := by
  unfold State.damagedWord; split <;> simp

@[simp] theorem State.controlWord_frame (s : State) (word : BitVec 24) :
    (s.controlWord word).settings = s.settings ∧ (s.controlWord word).tb = s.tb ∧
    (s.controlWord word).mark = s.mark ∧ (s.controlWord word).link = s.link ∧
    (s.controlWord word).roster = s.roster ∧ (s.controlWord word).consent = s.consent ∧
    (s.controlWord word).member = s.member ∧ (s.controlWord word).port = s.port ∧ (s.controlWord word).ram = s.ram ∧
    (s.controlWord word).out = s.out ∧ (s.controlWord word).loader = s.loader ∧
    (s.controlWord word).report = s.report ∧ (s.controlWord word).free = s.free ∧
    (s.controlWord word).pending = s.pending := by
  unfold State.controlWord; split <;> simp

@[simp] theorem State.frameOpenArrival_frame (s : State) :
    (s.frameOpenArrival).settings = s.settings ∧ (s.frameOpenArrival).tb = s.tb ∧
    (s.frameOpenArrival).mark = s.mark ∧ (s.frameOpenArrival).roster = s.roster ∧
    (s.frameOpenArrival).consent = s.consent ∧ (s.frameOpenArrival).table = s.table ∧
    (s.frameOpenArrival).input = s.input ∧ (s.frameOpenArrival).port = s.port ∧ (s.frameOpenArrival).ram = s.ram ∧
    (s.frameOpenArrival).out = s.out ∧ (s.frameOpenArrival).loader = s.loader ∧
    (s.frameOpenArrival).report = s.report ∧ (s.frameOpenArrival).free = s.free ∧
    (s.frameOpenArrival).pending = s.pending := by
  unfold State.frameOpenArrival State.whenNext; split <;> simp [State.takeReport]

@[simp] theorem State.leaveMember_frame (s : State) :
    (s.leaveMember).settings = s.settings ∧ (s.leaveMember).tb = s.tb ∧ (s.leaveMember).mark = s.mark ∧
    (s.leaveMember).link = s.link ∧ (s.leaveMember).roster = s.roster ∧ (s.leaveMember).table = s.table ∧
    (s.leaveMember).input = s.input ∧ (s.leaveMember).port = s.port ∧ (s.leaveMember).ram = s.ram ∧
    (s.leaveMember).out = s.out ∧ (s.leaveMember).loader = s.loader ∧ (s.leaveMember).report = s.report ∧
    (s.leaveMember).transit = s.transit ∧ (s.leaveMember).free = s.free ∧ (s.leaveMember).pending = s.pending := by
  unfold State.leaveMember; (repeat' split) <;> simp

@[simp] theorem State.parkNow_frame (s : State) :
    (s.parkNow).settings = s.settings ∧ (s.parkNow).tb = s.tb ∧ (s.parkNow).mark = s.mark ∧
    (s.parkNow).link = s.link ∧ (s.parkNow).roster = s.roster ∧ (s.parkNow).consent = s.consent ∧
    (s.parkNow).table = s.table ∧ (s.parkNow).input = s.input ∧ (s.parkNow).port = s.port ∧ (s.parkNow).ram = s.ram ∧
    (s.parkNow).out = s.out ∧ (s.parkNow).loader = s.loader ∧ (s.parkNow).transit = s.transit ∧
    (s.parkNow).free = s.free ∧ (s.parkNow).pending = s.pending := by
  simp [State.parkNow]

@[simp] theorem State.actOnLeave_frame (s : State) :
    (s.actOnLeave).settings = s.settings ∧ (s.actOnLeave).tb = s.tb ∧ (s.actOnLeave).mark = s.mark ∧
    (s.actOnLeave).link = s.link ∧ (s.actOnLeave).roster = s.roster ∧ (s.actOnLeave).table = s.table ∧
    (s.actOnLeave).input = s.input ∧ (s.actOnLeave).port = s.port ∧ (s.actOnLeave).ram = s.ram ∧
    (s.actOnLeave).out = s.out ∧ (s.actOnLeave).loader = s.loader ∧ (s.actOnLeave).transit = s.transit ∧
    (s.actOnLeave).free = s.free ∧ (s.actOnLeave).pending = s.pending := by
  unfold State.actOnLeave; split <;> simp

@[simp] theorem State.actOnRejoin_frame (s : State) :
    (s.actOnRejoin).settings = s.settings ∧ (s.actOnRejoin).tb = s.tb ∧ (s.actOnRejoin).mark = s.mark ∧
    (s.actOnRejoin).link = s.link ∧ (s.actOnRejoin).roster = s.roster ∧ (s.actOnRejoin).consent = s.consent ∧
    (s.actOnRejoin).table = s.table ∧ (s.actOnRejoin).input = s.input ∧ (s.actOnRejoin).port = s.port ∧
    (s.actOnRejoin).ram = s.ram ∧ (s.actOnRejoin).out = s.out ∧ (s.actOnRejoin).loader = s.loader ∧
    (s.actOnRejoin).transit = s.transit ∧ (s.actOnRejoin).free = s.free ∧ (s.actOnRejoin).pending = s.pending := by
  unfold State.actOnRejoin; split <;> simp

@[simp] theorem State.leave_frame (s : State) :
    (s.leave).settings = s.settings ∧ (s.leave).tb = s.tb ∧ (s.leave).mark = s.mark ∧ (s.leave).link = s.link ∧
    (s.leave).roster = s.roster ∧ (s.leave).table = s.table ∧ (s.leave).input = s.input ∧ (s.leave).port = s.port ∧
    (s.leave).ram = s.ram ∧ (s.leave).out = s.out ∧ (s.leave).loader = s.loader ∧ (s.leave).free = s.free ∧
    (s.leave).pending = s.pending := by
  unfold State.leave State.whenNext; split <;> simp [State.takeReport]

@[simp] theorem State.rejoin_frame (s : State) :
    (s.rejoin).settings = s.settings ∧ (s.rejoin).tb = s.tb ∧ (s.rejoin).mark = s.mark ∧ (s.rejoin).link = s.link ∧
    (s.rejoin).roster = s.roster ∧ (s.rejoin).consent = s.consent ∧ (s.rejoin).table = s.table ∧
    (s.rejoin).input = s.input ∧ (s.rejoin).port = s.port ∧ (s.rejoin).ram = s.ram ∧ (s.rejoin).out = s.out ∧
    (s.rejoin).loader = s.loader ∧ (s.rejoin).free = s.free ∧ (s.rejoin).pending = s.pending := by
  unfold State.rejoin State.whenNext; split <;> simp [State.takeReport]

@[simp] theorem State.grantWriter_frame (s : State) (w : WriterLine) (rest : List WriterLine) :
    (s.grantWriter w rest).settings = s.settings ∧ (s.grantWriter w rest).tb = s.tb ∧
    (s.grantWriter w rest).mark = s.mark ∧ (s.grantWriter w rest).link = s.link ∧
    (s.grantWriter w rest).roster = s.roster ∧ (s.grantWriter w rest).consent = s.consent ∧
    (s.grantWriter w rest).member = s.member ∧ (s.grantWriter w rest).table = s.table ∧
    (s.grantWriter w rest).ram = s.ram ∧ (s.grantWriter w rest).out = s.out ∧
    (s.grantWriter w rest).loader = s.loader ∧ (s.grantWriter w rest).report = s.report ∧
    (s.grantWriter w rest).transit = s.transit ∧ (s.grantWriter w rest).pending = s.pending := by
  unfold State.grantWriter; split <;> simp

@[simp] theorem State.grant_frame (s : State) :
    (s.grant).settings = s.settings ∧ (s.grant).tb = s.tb ∧ (s.grant).mark = s.mark ∧ (s.grant).link = s.link ∧
    (s.grant).roster = s.roster ∧ (s.grant).consent = s.consent ∧ (s.grant).member = s.member ∧
    (s.grant).table = s.table ∧ (s.grant).ram = s.ram ∧ (s.grant).out = s.out ∧ (s.grant).loader = s.loader ∧
    (s.grant).report = s.report ∧ (s.grant).transit = s.transit ∧ (s.grant).pending = s.pending := by
  unfold State.grant; (repeat' split) <;> simp

@[simp] theorem State.refreshClaim_frame (s : State) :
    (s.refreshClaim).settings = s.settings ∧ (s.refreshClaim).tb = s.tb ∧ (s.refreshClaim).mark = s.mark ∧
    (s.refreshClaim).link = s.link ∧ (s.refreshClaim).roster = s.roster ∧ (s.refreshClaim).consent = s.consent ∧
    (s.refreshClaim).member = s.member ∧ (s.refreshClaim).table = s.table ∧ (s.refreshClaim).ram = s.ram ∧
    (s.refreshClaim).out = s.out ∧ (s.refreshClaim).loader = s.loader ∧ (s.refreshClaim).report = s.report ∧
    (s.refreshClaim).pending = s.pending := by
  unfold State.refreshClaim State.whenNext; split <;> simp

@[simp] theorem State.writerClaim_frame (s : State) (slot line : Nat) :
    (s.writerClaim slot line).settings = s.settings ∧ (s.writerClaim slot line).tb = s.tb ∧
    (s.writerClaim slot line).mark = s.mark ∧ (s.writerClaim slot line).link = s.link ∧
    (s.writerClaim slot line).roster = s.roster ∧ (s.writerClaim slot line).consent = s.consent ∧
    (s.writerClaim slot line).member = s.member ∧ (s.writerClaim slot line).table = s.table ∧
    (s.writerClaim slot line).ram = s.ram ∧ (s.writerClaim slot line).out = s.out ∧
    (s.writerClaim slot line).loader = s.loader ∧ (s.writerClaim slot line).report = s.report ∧
    (s.writerClaim slot line).pending = s.pending := by
  unfold State.writerClaim State.whenNext; split <;> simp

@[simp] theorem State.readerClaim_frame (s : State) (item : ReaderItem) :
    (s.readerClaim item).settings = s.settings ∧ (s.readerClaim item).tb = s.tb ∧
    (s.readerClaim item).mark = s.mark ∧ (s.readerClaim item).link = s.link ∧
    (s.readerClaim item).roster = s.roster ∧ (s.readerClaim item).consent = s.consent ∧
    (s.readerClaim item).member = s.member ∧ (s.readerClaim item).table = s.table ∧
    (s.readerClaim item).ram = s.ram ∧ (s.readerClaim item).out = s.out ∧ (s.readerClaim item).loader = s.loader ∧
    (s.readerClaim item).report = s.report ∧ (s.readerClaim item).pending = s.pending := by
  unfold State.readerClaim State.whenNext; split <;> simp

@[simp] theorem State.deliver_frame (s : State) (b : Burst) :
    (s.deliver b).settings = s.settings ∧ (s.deliver b).tb = s.tb ∧ (s.deliver b).mark = s.mark ∧
    (s.deliver b).link = s.link ∧ (s.deliver b).roster = s.roster ∧ (s.deliver b).consent = s.consent ∧
    (s.deliver b).member = s.member ∧ (s.deliver b).input = s.input ∧ (s.deliver b).port = s.port ∧
    (s.deliver b).out = s.out ∧ (s.deliver b).loader = s.loader ∧ (s.deliver b).report = s.report ∧
    (s.deliver b).free = s.free ∧ (s.deliver b).pending = s.pending := by
  unfold State.deliver; split <;> simp

@[simp] theorem State.memoryDiscard_frame (s : State) (slot : Nat) :
    (s.memoryDiscard slot).settings = s.settings ∧ (s.memoryDiscard slot).tb = s.tb ∧
    (s.memoryDiscard slot).mark = s.mark ∧ (s.memoryDiscard slot).link = s.link ∧
    (s.memoryDiscard slot).roster = s.roster ∧ (s.memoryDiscard slot).consent = s.consent ∧
    (s.memoryDiscard slot).member = s.member ∧ (s.memoryDiscard slot).table = s.table ∧
    (s.memoryDiscard slot).input = s.input ∧ (s.memoryDiscard slot).ram = s.ram ∧
    (s.memoryDiscard slot).out = s.out ∧ (s.memoryDiscard slot).loader = s.loader ∧
    (s.memoryDiscard slot).report = s.report ∧ (s.memoryDiscard slot).free = s.free ∧
    (s.memoryDiscard slot).pending = s.pending := by
  unfold State.memoryDiscard State.whenNext; split <;> simp

@[simp] theorem State.readerWithdrawal_frame (s : State) (line : Nat) :
    (s.readerWithdrawal line).settings = s.settings ∧ (s.readerWithdrawal line).tb = s.tb ∧
    (s.readerWithdrawal line).mark = s.mark ∧ (s.readerWithdrawal line).link = s.link ∧
    (s.readerWithdrawal line).roster = s.roster ∧ (s.readerWithdrawal line).consent = s.consent ∧
    (s.readerWithdrawal line).member = s.member ∧ (s.readerWithdrawal line).table = s.table ∧
    (s.readerWithdrawal line).input = s.input ∧ (s.readerWithdrawal line).ram = s.ram ∧
    (s.readerWithdrawal line).out = s.out ∧ (s.readerWithdrawal line).loader = s.loader ∧
    (s.readerWithdrawal line).report = s.report ∧ (s.readerWithdrawal line).free = s.free ∧
    (s.readerWithdrawal line).pending = s.pending := by
  unfold State.readerWithdrawal State.whenNext; split <;> simp

@[simp] theorem State.takeSamples_frame (s : State) :
    (s.takeSamples).settings = s.settings ∧ (s.takeSamples).roster = s.roster ∧ (s.takeSamples).consent = s.consent ∧
    (s.takeSamples).member = s.member ∧ (s.takeSamples).table = s.table ∧ (s.takeSamples).input = s.input ∧
    (s.takeSamples).port = s.port ∧ (s.takeSamples).ram = s.ram ∧ (s.takeSamples).out = s.out ∧
    (s.takeSamples).loader = s.loader ∧ (s.takeSamples).report = s.report ∧ (s.takeSamples).transit = s.transit := by
  simp [State.takeSamples]

@[simp] theorem State.endPixel_frame (s : State) :
    (s.endPixel).settings = s.settings ∧ (s.endPixel).mark = s.mark ∧ (s.endPixel).roster = s.roster ∧
    (s.endPixel).consent = s.consent ∧ (s.endPixel).member = s.member ∧ (s.endPixel).table = s.table ∧
    (s.endPixel).input = s.input ∧ (s.endPixel).port = s.port ∧ (s.endPixel).ram = s.ram ∧ (s.endPixel).out = s.out ∧
    (s.endPixel).loader = s.loader ∧ (s.endPixel).report = s.report ∧ (s.endPixel).transit = s.transit ∧
    (s.endPixel).free = s.free := by
  simp [State.endPixel]

@[simp] theorem State.followCell_frame (s : State) :
    (s.followCell).settings = s.settings ∧ (s.followCell).tb = s.tb ∧ (s.followCell).mark = s.mark ∧
    (s.followCell).roster = s.roster ∧ (s.followCell).consent = s.consent ∧ (s.followCell).member = s.member ∧
    (s.followCell).table = s.table ∧ (s.followCell).input = s.input ∧ (s.followCell).port = s.port ∧
    (s.followCell).ram = s.ram ∧ (s.followCell).out = s.out ∧ (s.followCell).loader = s.loader ∧
    (s.followCell).report = s.report ∧ (s.followCell).transit = s.transit ∧ (s.followCell).free = s.free ∧
    (s.followCell).pending = s.pending := by
  unfold State.followCell; split <;> simp

@[simp] theorem State.clockReport_frame (s : State) :
    (s.clockReport).settings = s.settings ∧ (s.clockReport).tb = s.tb ∧ (s.clockReport).mark = s.mark ∧
    (s.clockReport).link = s.link ∧ (s.clockReport).roster = s.roster ∧ (s.clockReport).consent = s.consent ∧
    (s.clockReport).member = s.member ∧ (s.clockReport).table = s.table ∧ (s.clockReport).input = s.input ∧
    (s.clockReport).port = s.port ∧ (s.clockReport).ram = s.ram ∧ (s.clockReport).out = s.out ∧
    (s.clockReport).loader = s.loader ∧ (s.clockReport).transit = s.transit ∧ (s.clockReport).free = s.free := by
  simp [State.clockReport]

@[simp] theorem State.beginPixel_frame (s : State) (ln px : Nat) :
    (s.beginPixel ln px).settings = s.settings ∧ (s.beginPixel ln px).mark = s.mark ∧
    (s.beginPixel ln px).roster = s.roster ∧ (s.beginPixel ln px).consent = s.consent ∧
    (s.beginPixel ln px).member = s.member ∧ (s.beginPixel ln px).table = s.table ∧
    (s.beginPixel ln px).input = s.input ∧ (s.beginPixel ln px).port = s.port ∧ (s.beginPixel ln px).ram = s.ram ∧
    (s.beginPixel ln px).out = s.out ∧ (s.beginPixel ln px).loader = s.loader ∧
    (s.beginPixel ln px).report = s.report ∧ (s.beginPixel ln px).transit = s.transit ∧
    (s.beginPixel ln px).free = s.free := by
  simp [State.beginPixel]

@[simp] theorem State.nextPixel_frame (s : State) :
    (s.nextPixel).settings = s.settings ∧ (s.nextPixel).mark = s.mark ∧ (s.nextPixel).roster = s.roster ∧
    (s.nextPixel).consent = s.consent ∧ (s.nextPixel).member = s.member ∧ (s.nextPixel).table = s.table ∧
    (s.nextPixel).input = s.input ∧ (s.nextPixel).port = s.port ∧ (s.nextPixel).ram = s.ram ∧
    (s.nextPixel).out = s.out ∧ (s.nextPixel).loader = s.loader ∧ (s.nextPixel).transit = s.transit ∧
    (s.nextPixel).free = s.free := by
  unfold State.nextPixel; (repeat' split) <;> simp

@[simp] theorem State.tick_frame (s : State) :
    (s.tick).settings = s.settings ∧ (s.tick).roster = s.roster ∧ (s.tick).consent = s.consent ∧
    (s.tick).member = s.member ∧ (s.tick).table = s.table ∧ (s.tick).input = s.input ∧ (s.tick).port = s.port ∧
    (s.tick).ram = s.ram ∧ (s.tick).out = s.out ∧ (s.tick).transit = s.transit := by
  unfold State.tick; (repeat' split) <;> simp

end Sys2Proof.Machine
end

