-- ==== Sys2Proof/Laws/Ops.lean ====
section
/-! SUPPORT. What the shared operations can do: the counters, the report queue, frame memory, and the happenings of a
running part. -/

namespace Sys2Proof.Machine

open Sys2Proof

/-! ## Running and the counters -/

@[simp] theorem State.whenRunning_true (s t : State) (h : s.running = true) : s.whenRunning t = t := by
  simp [State.whenRunning, h]

@[simp] theorem State.whenRunning_false (s t : State) (h : s.running = false) : s.whenRunning t = s := by
  simp [State.whenRunning, h]

theorem State.running_iff (s : State) : s.running = true ↔ s.loader.phase = .accepted := by
  simp [State.running]

theorem State.running_congr {s t : State} (h : s.loader = t.loader) : s.running = t.running := by
  simp [State.running, h]

theorem State.own_congr {s t : State} (h : s.loader = t.loader) : s.own = t.own := by simp [State.own, h]

@[simp] theorem Timebase.pixelState_ended (t : Timebase) (state : MembershipState) (h : t.phase = .ended) :
    t.pixelState state = t.stateAtEnd := by simp [Timebase.pixelState, h]

@[simp] theorem Timebase.pixelState_open (t : Timebase) (state : MembershipState) (h : t.phase ≠ .ended) :
    t.pixelState state = state := by simp [Timebase.pixelState, h]

/-- Everything of the Timebase but the position, the phase, the wrap mark and the state before is kept by a move. -/
@[simp] theorem State.moveTo_kept (s : State) (ln px : Nat) :
    (s.moveTo ln px).tb.state = s.tb.state ∧ (s.moveTo ln px).tb.afn = s.tb.afn ∧
    (s.moveTo ln px).tb.openSlot = s.tb.openSlot ∧ (s.moveTo ln px).tb.openLine = s.tb.openLine := by
  simp only [State.moveTo, Timebase.moveTo, Timebase.beginAt]; split <;> (try split) <;> simp

/-- A move to a position of the frame puts the counters there. -/
theorem State.moveTo_inside (s : State) (ln px : Nat) (h1 : 1 ≤ ln) (h2 : ln ≤ s.settings.fl) (h3 : 1 ≤ px)
    (h4 : px ≤ s.settings.ll) :
    (s.moveTo ln px).tb = { s.tb with
      ln := ln, px := px, phase := (s.moveTo ln px).tb.phase, wrapMet := (s.moveTo ln px).tb.wrapMet,
      stateBefore := (s.moveTo ln px).tb.stateBefore } := by
  simp only [State.moveTo, Timebase.moveTo, Timebase.beginAt, h1, h2, h3, h4, true_and, if_true]
  by_cases h : s.tb.ln = ln ∧ s.tb.px = px
  · obtain ⟨rfl, rfl⟩ := h; simp
  · simp [h]

theorem State.moveTo_ln (s : State) (ln px : Nat) (h1 : 1 ≤ ln) (h2 : ln ≤ s.settings.fl) (h3 : 1 ≤ px)
    (h4 : px ≤ s.settings.ll) : (s.moveTo ln px).tb.ln = ln := by rw [s.moveTo_inside ln px h1 h2 h3 h4]

theorem State.moveTo_px (s : State) (ln px : Nat) (h1 : 1 ≤ ln) (h2 : ln ≤ s.settings.fl) (h3 : 1 ≤ px)
    (h4 : px ≤ s.settings.ll) : (s.moveTo ln px).tb.px = px := by rw [s.moveTo_inside ln px h1 h2 h3 h4]

/-- A move leaves the counters in their ranges. -/
theorem State.moveTo_range (s : State) (ln px : Nat)
    (h : 1 ≤ s.tb.ln ∧ s.tb.ln ≤ s.settings.fl ∧ 1 ≤ s.tb.px ∧ s.tb.px ≤ s.settings.ll) :
    1 ≤ (s.moveTo ln px).tb.ln ∧ (s.moveTo ln px).tb.ln ≤ s.settings.fl ∧
    1 ≤ (s.moveTo ln px).tb.px ∧ (s.moveTo ln px).tb.px ≤ s.settings.ll := by
  simp only [State.moveTo, Timebase.moveTo, Timebase.beginAt]
  by_cases h1 : 1 ≤ ln ∧ ln ≤ s.settings.fl ∧ 1 ≤ px ∧ px ≤ s.settings.ll
  · by_cases h2 : s.tb.ln = ln ∧ s.tb.px = px
    · simp [h1, h2]
    · simp [h1, h2]
  · simpa [h1] using h

/-- A move to a pixel's end is the move to the pixel, with the phase ENDED inside the frame; outside nothing moves. -/
theorem State.moveToEnd_eq (s : State) (ln px : Nat) :
    s.moveToEnd ln px =
      if 1 ≤ ln ∧ ln ≤ s.settings.fl ∧ 1 ≤ px ∧ px ≤ s.settings.ll then
        { s with tb := (s.moveTo ln px).tb.endAt s.member.state }
      else s := by
  simp only [State.moveToEnd, Timebase.moveToEnd, State.moveTo]; split <;> rfl

/-- Everything of the Timebase but the position, the phase, the wrap mark and the states of R34 is kept by a move to an end. -/
@[simp] theorem State.moveToEnd_kept (s : State) (ln px : Nat) :
    (s.moveToEnd ln px).tb.state = s.tb.state ∧ (s.moveToEnd ln px).tb.afn = s.tb.afn ∧
    (s.moveToEnd ln px).tb.openSlot = s.tb.openSlot ∧ (s.moveToEnd ln px).tb.openLine = s.tb.openLine := by
  rw [s.moveToEnd_eq]; split <;> simp [Timebase.endAt]

/-- A move to the end of a position of the frame puts the counters there, with nothing more of the pixel to come. -/
theorem State.moveToEnd_inside (s : State) (ln px : Nat) (h1 : 1 ≤ ln) (h2 : ln ≤ s.settings.fl) (h3 : 1 ≤ px)
    (h4 : px ≤ s.settings.ll) :
    (s.moveToEnd ln px).tb = { s.tb with
      ln := ln, px := px, phase := .ended, wrapMet := (s.moveToEnd ln px).tb.wrapMet,
      stateBefore := (s.moveToEnd ln px).tb.stateBefore, stateAtEnd := s.member.state } := by
  rw [s.moveToEnd_eq, if_pos ⟨h1, h2, h3, h4⟩, s.moveTo_inside ln px h1 h2 h3 h4]; rfl

/-- A move to a pixel's end leaves the counters in their ranges. -/
theorem State.moveToEnd_range (s : State) (ln px : Nat)
    (h : 1 ≤ s.tb.ln ∧ s.tb.ln ≤ s.settings.fl ∧ 1 ≤ s.tb.px ∧ s.tb.px ≤ s.settings.ll) :
    1 ≤ (s.moveToEnd ln px).tb.ln ∧ (s.moveToEnd ln px).tb.ln ≤ s.settings.fl ∧
    1 ≤ (s.moveToEnd ln px).tb.px ∧ (s.moveToEnd ln px).tb.px ≤ s.settings.ll := by
  rw [s.moveToEnd_eq]; split
  · exact s.moveTo_range ln px h
  · exact h

/-! ## What arrives, once and in order (R142; log 9) -/

@[simp] theorem Transit.nextReport_iff (t : Transit) (r : InputReport) :
    t.nextReport r = true ↔ t.toPclk.head? = some r := by simp [Transit.nextReport]

@[simp] theorem Transit.nextRefresh_iff (t : Transit) : t.nextRefresh = true ↔ t.refreshes ≠ 0 := by
  simp [Transit.nextRefresh]

@[simp] theorem Transit.nextMemory_iff (t : Transit) (m : MemoryItem) :
    t.nextMemory m = true ↔ t.toMemory.head? = some m := by simp [Transit.nextMemory]

@[simp] theorem Transit.nextReader_iff (t : Transit) (m : ReaderMessage) :
    t.nextReader m = true ↔ t.readerItems.head? = some m := by simp [Transit.nextReader]

@[simp] theorem Transit.nextRead_iff (t : Transit) (d : ReadData) :
    t.nextRead d = true ↔ t.reads.head? = some d := by simp [Transit.nextRead]

@[simp] theorem Transit.discards_iff (t : Transit) (slot : Nat) :
    t.discards slot = true ↔ .discard slot ∈ t.toMemory := by simp [Transit.discards]

/-- What a command that takes something sent can do: it takes the next on its way, or it has no effect. -/
theorem State.whenNext_cases (s : State) (next : Bool) (t : State) :
    next = true ∧ s.whenNext next t = t ∨ next = false ∧ s.whenNext next t = s := by
  cases next <;> simp

/-- What a writer grant can do to the Input Port: it takes a burst of the WAITING buffer of a frame not discarded, or nothing
(R123, R143, R145). -/
theorem State.grantWriter_input (s : State) (w : WriterLine) (rest : List WriterLine) :
    (∃ b, .discard w.slot ∉ s.transit.toMemory ∧ s.input.waitingBuffer w.slot w.line = some b ∧
      (s.grantWriter w rest).input = s.input.grantBurst b (decide (s.settings.bursts ≤ w.next + 1)) ∧
      (s.grantWriter w rest).free = s.free) ∨
    (.discard w.slot ∈ s.transit.toMemory ∨ s.input.waitingBuffer w.slot w.line = none) ∧
      (s.grantWriter w rest).input = s.input ∧ (s.grantWriter w rest).free = s.free + 64 := by
  unfold State.grantWriter; dsimp only
  by_cases hd : .discard w.slot ∈ s.transit.toMemory
  · have hc : s.claimBuffer w = none := by simp [State.claimBuffer, hd]
    rw [hc]; exact Or.inr ⟨Or.inl hd, rfl, rfl⟩
  · have hc : s.claimBuffer w = s.input.waitingBuffer w.slot w.line := by simp [State.claimBuffer, hd]
    rw [hc]
    cases hb : s.input.waitingBuffer w.slot w.line with
    | none => exact Or.inr ⟨Or.inr rfl, rfl, rfl⟩
    | some b => exact Or.inl ⟨b, hd, rfl, rfl, rfl⟩

/-- A burst with the drop mark reports no line (R152). -/
theorem State.deliver_dropped (s : State) (slot line burst : Nat) (data : List Byte) :
    (s.deliver (.writer slot line burst data true)).table = s.table := by simp [State.deliver]

/-- The last burst of a line without the drop mark reports it, whatever is on its way (R121, R151). -/
theorem State.deliver_last (s : State) (slot line burst : Nat) (data : List Byte) (h : s.settings.bursts ≤ burst + 1) :
    (s.deliver (.writer slot line burst data false)).table = s.table.lineWritten s.settings.wh slot line := by
  simp [State.deliver, h]

/-! ## Slot outcomes (R52, R54) -/

/-- An uncut slot end is HEARD exactly when it hands a record. -/
theorem State.slotOutcome_heard_iff (s : State) (i : Nat) :
    s.slotOutcome i = .heard ↔ (s.slotRecord i).isSome = true := by
  unfold State.slotOutcome State.slotRecord LinkInterface.outcome
  cases s.silentIn i <;> cases s.link.heardRecord i <;> simp <;> split <;> simp

/-- A station that did not transmit in its own slot has neither HEARD nor a record there (R54, R63). -/
theorem State.slotRecord_silent (s : State) (h : s.link.tx = .idle) : s.slotRecord s.own = none := by
  simp [State.slotRecord, State.silentIn, h]

/-- In every other slot, and in the own slot of a station that transmitted, the receiver alone decides (R52, R54). -/
theorem State.slotOutcome_received (s : State) (i : Nat) (h : i ≠ s.own ∨ s.link.tx ≠ .idle) :
    s.slotOutcome i = s.link.outcome i ∧ s.slotRecord i = s.link.heardRecord i := by
  have hs : s.silentIn i = false := by
    simp only [State.silentIn, decide_eq_false_iff_not]; rintro ⟨h1, h2⟩; exact h.elim (· h1) (· h2)
  simp [State.slotOutcome, State.slotRecord, hs]

/-! ## Counts -/

theorem satSucc_le (limit n : Nat) : satSucc limit n ≤ limit := by simp [satSucc]

/-! ## The report queue (R177) -/

theorem ReportPort.post_length (p : ReportPort) (b : ReportBody) (h : p.queue.length ≤ 4) :
    (p.post b).queue.length ≤ 4 := by
  unfold ReportPort.post ReportPort.hasRoom Config.reportQueue
  split
  · rename_i hr; have := of_decide_eq_true hr; simp; omega
  · exact h

theorem ReportPort.post_room (p : ReportPort) (b : ReportBody) (h : p.queue.length < 4) :
    p.post b = { p with queue := p.queue ++ [⟨b, p.lost⟩], lost := 0, lastFrame := b.keyOr p.lastFrame } := by
  simp [ReportPort.post, ReportPort.hasRoom, Config.reportQueue, h]

theorem ReportPort.post_full (p : ReportPort) (b : ReportBody) (h : 4 ≤ p.queue.length) :
    p.post b = { p with lost := p.lost + 1 } := by
  simp [ReportPort.post, ReportPort.hasRoom, Config.reportQueue, Nat.not_lt.mpr h]

theorem State.postEvent_room (s : State) (e : Event) (h : s.report.queue.length < 4) :
    (s.postEvent e).report.queue = s.report.queue ++ [⟨.event s.tb.afn e, s.report.lost⟩] := by
  simp [State.postEvent, ReportPort.post_room _ _ h]

/-- A post of a FRAME record adds at most one record, at the newest place. -/
theorem ReportPort.postFrame_queue (p : ReportPort) (mode : ReportMode) (f : FrameRecord) :
    (p.postFrame mode f).queue = p.queue ∨ (p.postFrame mode f).queue = p.queue ++ [⟨.frame f, p.lost⟩] := by
  cases mode <;> simp only [ReportPort.postFrame, ReportPort.post] <;> (repeat' split) <;> simp

/-! ## Frame memory (R147; log 7) -/

/-- A list with rising addresses from `low` has them rising from any lower bound. -/
theorem ramSortedFrom_mono {low high : Nat} (h : low ≤ high) :
    ∀ {ram : List Host.Cell}, ramSortedFrom high ram = true → ramSortedFrom low ram = true
  | [], _ => rfl
  | (a, b) :: rest, hs => by
    simp only [ramSortedFrom, Bool.and_eq_true, decide_eq_true_eq] at hs ⊢
    exact ⟨⟨by omega, hs.1.2⟩, hs.2⟩

/-- An address below the bound is not listed. -/
theorem ramRead_below : ∀ {ram : List Host.Cell} {low addr : Nat}, ramSortedFrom low ram = true → addr < low →
    ramRead ram addr = unwritten
  | [], _, _, _, _ => rfl
  | (a, b) :: rest, low, addr, hs, h => by
    simp only [ramSortedFrom, Bool.and_eq_true, decide_eq_true_eq] at hs
    have hne : a ≠ addr := by omega
    simp only [ramRead, if_neg hne]
    exact ramRead_below hs.2 (by omega)

/-- A write keeps the canonical form above a bound that the address meets. -/
theorem ramWrite_sorted : ∀ {ram : List Host.Cell} {low addr : Nat} (byte : Byte), ramSortedFrom low ram = true →
    low ≤ addr → ramSortedFrom low (ramWrite ram addr byte) = true
  | [], low, addr, byte, _, h => by
    simp only [ramWrite]; split <;> simp_all [ramSortedFrom]
  | (a, b) :: rest, low, addr, byte, hs, h => by
    simp only [ramSortedFrom, Bool.and_eq_true, decide_eq_true_eq] at hs
    obtain ⟨⟨h1, h2⟩, h3⟩ := hs
    by_cases c1 : addr < a
    · by_cases c3 : byte = unwritten
      · simp [ramWrite, c1, c3, ramSortedFrom, h1, h2, h3]
      · simp [ramWrite, c1, c3, ramSortedFrom, h, h2, h3]
    · by_cases c2 : addr = a
      · subst c2
        by_cases c3 : byte = unwritten
        · simp [ramWrite, c3]; exact ramSortedFrom_mono (by omega) h3
        · simp [ramWrite, c3, ramSortedFrom, h1, h3]
      · have ih := ramWrite_sorted byte h3 (by omega : a + 1 ≤ addr)
        simp [ramWrite, c1, c2, ramSortedFrom, h1, h2, ih]

/-- A write gives its byte at its address and leaves every other address as it was. -/
theorem ramRead_ramWrite : ∀ {ram : List Host.Cell} {low : Nat} (addr other : Nat) (byte : Byte),
    ramSortedFrom low ram = true →
    ramRead (ramWrite ram addr byte) other = if other = addr then byte else ramRead ram other
  | [], low, addr, other, byte, _ => by
    by_cases c3 : byte = unwritten <;> by_cases c : other = addr
    · simp [ramWrite, ramRead, c3, c]
    · simp [ramWrite, ramRead, c3, c]
    · simp [ramWrite, ramRead, c3, c]
    · have : ¬ addr = other := fun e => c e.symm
      simp [ramWrite, ramRead, c3, c, this]
  | (a, b) :: rest, low, addr, other, byte, hs => by
    simp only [ramSortedFrom, Bool.and_eq_true, decide_eq_true_eq] at hs
    obtain ⟨⟨h1, h2⟩, h3⟩ := hs
    by_cases c1 : addr < a
    · by_cases c : other = addr
      · subst c
        have hlow : ramRead rest other = unwritten := ramRead_below h3 (by omega)
        have hne : ¬ a = other := by omega
        by_cases c3 : byte = unwritten <;> simp [ramWrite, c1, c3, ramRead, hne, hlow]
      · have hne : ¬ addr = other := fun e => c e.symm
        by_cases c3 : byte = unwritten <;> simp [ramWrite, c1, c3, ramRead, c, hne]
    · by_cases c2 : addr = a
      · subst c2
        by_cases c : other = addr
        · subst c
          have hlow : ramRead rest other = unwritten := ramRead_below h3 (by omega)
          by_cases c3 : byte = unwritten <;> simp [ramWrite, c3, ramRead, hlow]
        · have hne : ¬ addr = other := fun e => c e.symm
          by_cases c3 : byte = unwritten <;> simp [ramWrite, c3, ramRead, c, hne]
      · have ih := ramRead_ramWrite addr other byte h3
        by_cases c : a = other
        · subst c
          have hne : ¬ a = addr := fun e => c2 e.symm
          simp [ramWrite, c1, c2, ramRead, hne]
        · simp [ramWrite, c1, c2, ramRead, c, ih]

/-- A run of bytes written keeps the canonical form. -/
theorem ramWriteBytes_canonical : ∀ {ram : List Host.Cell} (addr : Nat) (bytes : List Byte),
    ramCanonical ram = true → ramCanonical (ramWriteBytes ram addr bytes) = true
  | _, _, [], h => h
  | _, addr, b :: rest, h => ramWriteBytes_canonical (addr + 1) rest (ramWrite_sorted b h (Nat.zero_le addr))

/-- A run of bytes written reads back, and every other address reads as before. -/
theorem ramRead_ramWriteBytes : ∀ {ram : List Host.Cell} (addr other : Nat) (bytes : List Byte),
    ramCanonical ram = true →
    ramRead (ramWriteBytes ram addr bytes) other =
      if addr ≤ other ∧ other < addr + bytes.length then (bytes[other - addr]?).getD 0 else ramRead ram other
  | ram, addr, other, [], h => by simp [ramWriteBytes]
  | ram, addr, other, b :: rest, h => by
    have hc : ramCanonical (ramWrite ram addr b) = true := ramWrite_sorted b h (Nat.zero_le addr)
    rw [ramWriteBytes, ramRead_ramWriteBytes (addr + 1) other rest hc, ramRead_ramWrite addr other b h]
    by_cases c : other = addr
    · subst c; simp
    · by_cases c2 : addr + 1 ≤ other ∧ other < addr + 1 + rest.length
      · have c3 : addr ≤ other ∧ other < addr + (b :: rest).length := by simp; omega
        have e : other - addr = (other - (addr + 1)) + 1 := by omega
        simp only [if_pos c2, if_pos c3, e, List.getElem?_cons_succ]
      · have c3 : ¬(addr ≤ other ∧ other < addr + (b :: rest).length) := by simp; omega
        simp only [if_neg c2, if_neg c3, if_neg c]

/-- Frame memory right after reset is in its canonical form. -/
theorem reset_canonical : ramCanonical State.reset.ram = true := rfl

/-- What a reset leaves of frame memory is in its canonical form (R148). -/
theorem State.ramAfterReset_canonical (s : State) (h : ramCanonical s.ram = true) :
    ramCanonical s.ramAfterReset = true := by
  unfold State.ramAfterReset
  split
  · exact ramWriteBytes_canonical _ _ h
  · exact h

/-- A burst that ends keeps frame memory in its canonical form (R151). -/
theorem State.deliver_canonical (s : State) (b : Burst) (h : ramCanonical s.ram = true) :
    ramCanonical (s.deliver b).ram = true := by
  cases b with
  | refresh => exact h
  | reader => exact h
  | writer => exact ramWriteBytes_canonical _ _ h

/-! ## Own withdrawal and the claim (R75) -/

/-- After an own withdrawal unheard-by-majority does not hold, whatever the roster (R75, R111). -/
@[simp] theorem Roster.unheardByMajority_owed (t : Roster) (own : Nat) : t.unheardByMajority own true = false := by
  simp [Roster.unheardByMajority]

@[simp] theorem State.withdrawAtSwap_claimOwed (s : State) (cause : WithdrawalCause) :
    (s.withdrawAtSwap cause).link.claimOwed = true := by
  unfold State.withdrawAtSwap State.settleTransmission
  split <;> simp [State.postEvent, LinkInterface.endEarly]

end Sys2Proof.Machine
end

