-- ==== Sys2Proof/Laws/FrameStart.lean ====
section
/-! SUPPORT. What a frame start can do at the Membership Controller, the Output Pipe and the Mark Aligner (R26, R34, R101,
R102, R157, R158), and at an edge in TRACKING (R28). -/

namespace Sys2Proof.Machine

open Sys2Proof

/-! ## Entry to LISTEN (R99) -/

@[simp] theorem State.enterListen_tb (s : State) : s.enterListen.tb = { s.tb with state := .seeking } := by
  simp [State.enterListen]

@[simp] theorem State.enterListen_member (s : State) : s.enterListen.member = s.member.enterListen := by
  simp [State.enterListen]

@[simp] theorem State.enterListen_mark (s : State) : s.enterListen.mark = s.mark.seekOrder := by
  simp [State.enterListen]

@[simp] theorem State.enterListen_roster (s : State) : s.enterListen.roster = State.resetRoster := by
  simp [State.enterListen]

/-- A transmission that is not under way is left alone (R44). -/
theorem State.settleTransmission_link (s : State) (h : s.link.tx ≠ .sending) : s.settleTransmission.link = s.link := by
  unfold State.settleTransmission; split <;> simp [LinkInterface.endEarly, h]

theorem State.enterListen_link (s : State) (h : s.link.tx ≠ .sending) : s.enterListen.link = s.link := by
  unfold State.enterListen; rw [State.settleTransmission_link]; exact h

/-! ## The membership steps of a frame start (R101) -/

/-- A cause raised while no VOTING member is voting leaves the Consent Unit as it is. -/
theorem State.raise_consent (s : State) (cause : WithdrawalCause) (h : s.consent.role ≠ .voting) :
    (s.raise cause).consent = s.consent := by
  simp [State.raise, ConsentUnit.abstain, h]

/-- A raised cause changes the pending withdrawal alone. -/
theorem State.raise_member (s : State) (cause : WithdrawalCause) :
    (s.raise cause).member = { s.member with withdrawal := (s.raise cause).member.withdrawal } := by
  simp only [State.raise, Membership.raise]; split <;> rfl

/-- The station enters LISTEN at a frame start that hands this miss run (R101, steps 1 to 3). -/
def State.entersListen (s : State) (handed : Option Nat) : Prop :=
  s.member.state = .parked ∧ s.member.rejoin = true ∨ s.member.state = .resting ∧ s.member.rest ≤ 1 ∨
    s.member.state = .joining ∧ ∃ run, handed = some run ∧ 4 ≤ run

/-- Steps 1 to 3 of R101 for a station that does not enter LISTEN: at most a withdrawal becomes pending and a rest count
falls. -/
theorem State.steps_stay (s : State) (handed : Option Nat) (h : ¬s.entersListen handed) :
    ∃ w, (w = s.member.withdrawal ∨ s.member.state = .member ∧ w = some .markLost) ∧
      ((s.rejoinStep).restStep).missStep handed = { s with
        member := { s.member with
          withdrawal := w
          rest := if s.member.state = .resting then s.member.rest - 1 else s.member.rest }
        consent := (((s.rejoinStep).restStep).missStep handed).consent } := by
  unfold State.entersListen at h
  have h1 : s.rejoinStep = s := by
    unfold State.rejoinStep; split
    · exact absurd (Or.inl ‹_›) h
    · rfl
  rw [h1]
  by_cases hr : s.member.state = .resting
  · have h2 : ¬ s.member.rest ≤ 1 := fun c => h (Or.inr (Or.inl ⟨hr, c⟩))
    refine ⟨s.member.withdrawal, Or.inl rfl, ?_⟩
    unfold State.missStep State.restStep
    (repeat' split) <;> simp_all
  · have h2 : s.restStep = s := by simp [State.restStep, hr]
    rw [h2]
    unfold State.missStep
    split
    · split
      · split
        · rename_i hm
          refine ⟨(s.raise .markLost).member.withdrawal, ?_, ?_⟩
          · by_cases hw : s.member.withdrawal = none <;> simp [State.raise, Membership.raise, hm, hw]
          · apply State.ext <;> simp
            conv_lhs => rw [State.raise_member]
        · split
          · rename_i run hrun _ hj
            exact absurd (Or.inr (Or.inr ⟨hj, run, rfl, hrun⟩)) h
          · exact ⟨_, Or.inl rfl, by simp⟩
      · exact ⟨_, Or.inl rfl, by simp⟩
    · exact ⟨_, Or.inl rfl, by simp [hr]⟩

/-- Steps 1 to 3 of R101 for a station that enters LISTEN. -/
theorem State.steps_enter (s : State) (handed : Option Nat) (h : s.entersListen handed) :
    ((s.rejoinStep).restStep).missStep handed = s.enterListen := by
  rcases h with ⟨h1, h2⟩ | ⟨h1, h2⟩ | ⟨h1, run, rfl, h2⟩
  · unfold State.missStep State.restStep State.rejoinStep
    (repeat' split) <;> simp_all [Membership.enterListen]
  · unfold State.missStep State.restStep State.rejoinStep
    (repeat' split) <;> simp_all [Membership.enterListen]
  · unfold State.missStep State.restStep State.rejoinStep
    (repeat' split) <;> simp_all [Config.markMissLimit]
    omega

/-- Steps 4 and 5 of R101 touch the empty-roll-call run of a JOINING station, the silence count and the withdrawal. -/
theorem State.steps_count (s : State) (had : Bool) :
    ∃ w, (w = s.member.withdrawal ∨ s.member.state = .member ∧ s.member.withdrawal = none ∧ w = some .inputSilent) ∧
      (s.emptyStep had).silenceStep = { s with
        member := { s.member with
          withdrawal := w
          emptyRun := if s.member.state = .joining ∧ had = false then 0 else s.member.emptyRun
          inputSilence := min (s.member.inputSilence + 1) 255 }
        consent := (s.emptyStep had).silenceStep.consent } := by
  refine ⟨(s.emptyStep had).silenceStep.member.withdrawal, ?_, ?_⟩
  · unfold State.silenceStep State.emptyStep; dsimp only
    (repeat' split) <;> simp_all [State.raise, Membership.raise]
    split <;> simp_all [State.inputSilent]
  · unfold State.silenceStep State.emptyStep; dsimp only
    (repeat' split) <;> apply State.ext <;>
      simp_all [State.raise, Membership.raise, satSucc, Config.missRunMax]
    split <;> simp_all

/-- The Membership Controller at a frame start, for a station that does not enter LISTEN (R101, R102). -/
theorem State.memberFrameStart_stay (s : State) (cause : FrameCause) (handed : Option Nat) (had : Bool)
    (hc : cause ≠ .first) (h : ¬s.entersListen handed) :
    ∃ w, (w = s.member.withdrawal ∨ s.member.state = .member ∧ (w = some .markLost ∨ w = some .inputSilent)) ∧
      s.memberFrameStart cause handed had = { s with
        member := { s.member with
          verdictLevel := none
          withdrawal := w
          rest := if s.member.state = .resting then s.member.rest - 1 else s.member.rest
          emptyRun := if s.member.state = .joining ∧ had = false then 0 else s.member.emptyRun
          inputSilence := min (s.member.inputSilence + 1) 255 }
        consent := (s.memberFrameStart cause handed had).consent } := by
  unfold State.memberFrameStart
  simp only [hc, if_false]
  generalize hx : ({ s with member := { s.member with verdictLevel := none } } : State) = x
  have hx' : ¬x.entersListen handed := by subst hx; exact h
  obtain ⟨w, hw, e⟩ := x.steps_stay handed hx'
  obtain ⟨v, hv, e'⟩ := (((x.rejoinStep).restStep).missStep handed).steps_count had
  generalize (((x.rejoinStep).restStep).missStep handed) = y at *
  refine ⟨v, ?_, ?_⟩
  · rw [e] at hv; subst hx
    rcases hv with hv | ⟨h1, h2, h3⟩
    · rcases hw with hw | ⟨h4, h5⟩
      · left; rw [hv]; exact hw
      · right; exact ⟨h4, Or.inl (hv.trans h5)⟩
    · right; exact ⟨h1, Or.inr h3⟩
  · generalize ((y.emptyStep had).silenceStep).consent = k at *
    rw [e', e]; subst hx; rfl

/-- The Membership Controller at a frame start, for a station that enters LISTEN (R99, R101, R102). -/
theorem State.memberFrameStart_enter (s : State) (cause : FrameCause) (handed : Option Nat) (had : Bool)
    (hc : cause ≠ .first) (h : s.entersListen handed) :
    s.memberFrameStart cause handed had = { s with
      tb := { s.tb with state := .seeking }
      mark := s.mark.seekOrder
      roster := State.resetRoster
      member := { s.member.enterListen with
        verdictLevel := none
        inputSilence := min (s.member.inputSilence + 1) 255 }
      link := (s.memberFrameStart cause handed had).link } := by
  unfold State.memberFrameStart
  simp only [hc, if_false]
  generalize hx : ({ s with member := { s.member with verdictLevel := none } } : State) = x
  have hx' : x.entersListen handed := by subst hx; exact h
  rw [x.steps_enter handed hx']
  have hs : ∀ n, x.enterListen.inputSilent n = false := by
    intro n; simp [State.inputSilent, Membership.enterListen]
  have he : x.enterListen.emptyStep had = x.enterListen := by simp [State.emptyStep, Membership.enterListen]
  rw [he]
  unfold State.silenceStep
  simp only [hs]
  subst hx
  apply State.ext <;> simp [satSucc, Config.missRunMax, Membership.enterListen]

/-- A frame start leaves the Consent Unit as its own frame start set it: no member is VOTING yet (R77, R87). -/
theorem State.memberFrameStart_consent (s : State) (cause : FrameCause) (handed : Option Nat) (had : Bool)
    (h : s.consent.role ≠ .voting) : (s.memberFrameStart cause handed had).consent = s.consent := by
  have h1 : ∀ x : State, x.consent = s.consent → (x.missStep handed).consent = s.consent := by
    intro x hx; unfold State.missStep
    (repeat' split) <;> simp [hx, State.raise_consent x .markLost (hx ▸ h)]
  have h2 : ∀ x : State, x.consent = s.consent → x.silenceStep.consent = s.consent := by
    intro x hx; unfold State.silenceStep; dsimp only
    split
    · rw [State.raise_consent]
      · exact hx
      · simpa [hx] using h
    · exact hx
  unfold State.memberFrameStart; dsimp only; split
  · rfl
  · apply h2; rw [(State.emptyStep_frame _ _).2.2.2.2.2.1]; apply h1; simp

/-- A frame start leaves a transmitter that is not sending alone. -/
theorem State.memberFrameStart_link (s : State) (cause : FrameCause) (handed : Option Nat) (had : Bool)
    (h : s.link.tx ≠ .sending) : (s.memberFrameStart cause handed had).link = s.link := by
  by_cases hc : cause = .first
  · simp [State.memberFrameStart, hc]
  · by_cases he : s.entersListen handed
    · unfold State.memberFrameStart
      simp only [hc, if_false, State.silenceStep_frame, State.emptyStep_frame]
      generalize hx : ({ s with member := { s.member with verdictLevel := none } } : State) = x
      have hx' : x.entersListen handed := by subst hx; exact he
      have hl : x.link = s.link := by subst hx; rfl
      rw [x.steps_enter handed hx', x.enterListen_link (hl ▸ h), hl]
    · obtain ⟨w, _, e⟩ := s.memberFrameStart_stay cause handed had hc he
      rw [e]

/-- MEMBER is neither entered nor left at a frame start (R157). -/
theorem State.memberFrameStart_member (s : State) (cause : FrameCause) (handed : Option Nat) (had : Bool) :
    (s.memberFrameStart cause handed had).member.state = .member ↔ s.member.state = .member := by
  by_cases hc : cause = .first
  · simp [State.memberFrameStart, hc]
  · by_cases he : s.entersListen handed
    · rw [s.memberFrameStart_enter cause handed had hc he]
      rcases he with ⟨h, _⟩ | ⟨h, _⟩ | ⟨h, _⟩ <;> simp [h, Membership.enterListen]
    · obtain ⟨w, _, e⟩ := s.memberFrameStart_stay cause handed had hc he
      rw [e]

/-! ## The Output Pipe at a frame start (R157, R158, R166) -/

theorem State.latchFrame_latched (s : State) :
    s.latchFrame.out.latched = (if s.member.state = .member then s.table.shown else none) ∧
    s.latchFrame.out.previous = s.out.latched ∧
    s.latchFrame.out.flip = decide ((if s.member.state = .member then s.table.shown else none) ≠ none ∧
      (if s.member.state = .member then s.table.shown else none) ≠ s.out.latched) ∧
    s.latchFrame.transit.refreshes = s.transit.refreshes ∧ s.latchFrame.out.underruns = s.out.underruns := by
  unfold State.latchFrame State.placeTurn; dsimp only
  (repeat' split) <;> simp [State.settleUrgent, OutputPipe.settleUrgent, OutputPipe.latch, OutputPipe.placeLine,
    Transit.sendReader]

/-- The turn of a line that the image still has: its place ACTIVE with no burst held, and its claims (R158). -/
theorem State.placeTurn_places (s : State) (slot : Nat) (h1 : s.out.latched = some slot)
    (h2 : s.out.nextLine < s.settings.wh) :
    s.placeTurn = { s with
      out := s.out.placeLine s.out.nextLine
      transit := s.transit.sendReader [.item (.claims slot s.out.nextLine)] } := by
  simp [State.placeTurn, h1, h2]

/-- The turn places nothing with no slot latched, or when every line has had its turn (R158). -/
theorem State.placeTurn_nothing (s : State) (h : s.out.latched = none ∨ s.settings.wh ≤ s.out.nextLine) :
    s.placeTurn = s := by
  unfold State.placeTurn; split
  · split <;> simp_all; omega
  · rfl

/-- What a frame start leaves in the line store and sends to the Memory Port (R158), and urgent after it (R160). -/
theorem State.latchFrame_store (s : State) :
    s.latchFrame.out.currentLine = 0 ∧
    (s.latchFrame.out.latched = none ∨ s.settings.wh = 0 →
      s.latchFrame.out.places = s.out.places.map (fun _ => .vacant) ∧ s.latchFrame.out.nextLine = 0 ∧
      s.latchFrame.out.urgent = false ∧
      s.latchFrame.transit.readerItems = s.transit.readerItems ++ [.item .frameStart]) ∧
    (∀ slot, s.latchFrame.out.latched = some slot → s.out.places.length = 3 →
      (s.settings.wh = 1 →
        s.latchFrame.out.places = [.holds 0 0 .active [], .vacant, .vacant] ∧ s.latchFrame.out.nextLine = 1 ∧
        s.latchFrame.transit.readerItems = s.transit.readerItems ++ [.item .frameStart, .item (.claims slot 0)]) ∧
      (2 ≤ s.settings.wh →
        s.latchFrame.out.places = [.holds 0 0 .active [], .holds 1 0 .active [], .vacant] ∧
        s.latchFrame.out.nextLine = 2 ∧
        s.latchFrame.transit.readerItems =
          s.transit.readerItems ++ [.item .frameStart, .item (.claims slot 0), .item (.claims slot 1)]) ∧
      (1 ≤ s.settings.wh → 1 ≤ s.settings.ww → s.latchFrame.out.urgent = true)) := by
  rw [(State.latchFrame_latched s).1]
  unfold State.latchFrame; dsimp only
  generalize (if s.member.state = .member then s.table.shown else none) = shown
  have hb : 1 ≤ s.settings.ww → 0 ≠ s.settings.bursts := by unfold Settings.bursts; omega
  generalize hx : ({ s with
    out := s.out.latch shown
    transit := s.transit.sendReader [.item .frameStart] } : State) = x
  by_cases h : shown = none ∨ s.settings.wh = 0
  · have hn : x.placeTurn = x := x.placeTurn_nothing (by subst hx; simpa [OutputPipe.latch] using h)
    rw [hn, hn]; subst hx
    refine ⟨rfl, fun _ => ⟨rfl, rfl, ?_, rfl⟩, ?_⟩
    · rcases h with h | h <;>
        simp [State.settleUrgent, OutputPipe.settleUrgent, OutputPipe.urgentCondition, OutputPipe.latch, h]
    · rintro slot rfl _
      simp only [reduceCtorEq, false_or] at h
      exact ⟨by omega, by omega, by omega⟩
  · push Not at h
    obtain ⟨slot, rfl⟩ := Option.ne_none_iff_exists'.1 h.1
    have h0 : 0 < s.settings.wh := by omega
    rw [x.placeTurn_places slot (by subst hx; rfl) (by subst hx; exact h0)]; subst hx
    by_cases h1 : s.settings.wh = 1
    · rw [State.placeTurn_nothing _ (Or.inr (by simp [OutputPipe.latch, OutputPipe.placeLine, h1]))]
      refine ⟨rfl, by simp [h.2], ?_⟩
      rintro slot ⟨⟩ hl
      have ⟨a, b, c, hp⟩ := List.length_eq_three.1 hl
      simp [State.settleUrgent, OutputPipe.settleUrgent, OutputPipe.latch, OutputPipe.placeLine, hp,
        Transit.sendReader, h1, OutputPipe.urgentCondition, OutputPipe.marked, OutputPipe.place, OutputPipe.whollyResident]
      exact hb
    · have h2 : 1 < s.settings.wh := by omega
      rw [State.placeTurn_places _ slot rfl h2]
      refine ⟨rfl, by simp [h.2], ?_⟩
      rintro slot ⟨⟩ hl
      have ⟨a, b, c, hp⟩ := List.length_eq_three.1 hl
      refine ⟨by omega, fun _ => by
        simp [State.settleUrgent, OutputPipe.settleUrgent, OutputPipe.latch, OutputPipe.placeLine, hp, Transit.sendReader], ?_⟩
      intro _ hw
      simp [State.settleUrgent, OutputPipe.settleUrgent, OutputPipe.latch, OutputPipe.placeLine, hp, h0,
        OutputPipe.urgentCondition, OutputPipe.marked, OutputPipe.place, OutputPipe.whollyResident, hb hw]

/-! ## The Mark Aligner and the Timebase at a frame start (R4, R8, R26, R34) -/

/-- At the frame start the counters and AFN are those of the new frame; only seek silence changes the state (R4, R8, R26). -/
theorem State.markFrameStart_tb (s : State) (cause : FrameCause) (ended : TimebaseState) :
    (s.markFrameStart cause ended).tb = { s.tb.frameStart cause s.member.state with
      state := if s.mark.silenceReached cause ended then .tracking else s.tb.state } := by
  unfold State.markFrameStart State.takeSilence
  split <;> simp_all [State.openFrame, State.trackOrder, Timebase.frameStart]

/-- The Membership Controller sees a frame start whose seek silence is the start of joining (R100). -/
theorem State.markFrameStart_member (s : State) (cause : FrameCause) (ended : TimebaseState) :
    (s.markFrameStart cause ended).member =
      if s.mark.silenceReached cause ended then s.member.startJoining else s.member := by
  unfold State.markFrameStart State.takeSilence
  split <;> simp_all [State.trackOrder]

/-- The Mark Aligner's own account of a frame start (R26, R34, R35). -/
theorem State.markFrameStart_mark (s : State) (cause : FrameCause) (ended : TimebaseState) :
    (s.markFrameStart cause ended).mark =
      if s.mark.silenceReached cause ended then
        ((s.mark.closeFrame cause ended).openFrame cause s.tb.state).trackBySilence s.report.hasRoom
      else (s.mark.closeFrame cause ended).openFrame cause s.tb.state := by
  unfold State.markFrameStart State.takeSilence
  split
  · rename_i h
    have hm : s.mark.missReached cause ended = false := by
      simp only [MarkAligner.silenceReached, MarkAligner.countsSilence, Bool.and_eq_true, decide_eq_true_eq] at h
      simp [MarkAligner.missReached, MarkAligner.countsMiss, h.1.2.1]
    simp [hm, State.reportMarkLost, State.openFrame]
  · simp_all [State.openFrame]

@[simp] theorem State.markFrameStart_opened (s : State) (cause : FrameCause) (ended : TimebaseState) :
    (s.markFrameStart cause ended).link = s.link.frameStart ∧
    (s.markFrameStart cause ended).roster = s.roster.frameStart s.settings.n cause ended ∧
    (s.markFrameStart cause ended).consent = s.consent.frameStart ∧
    (s.markFrameStart cause ended).transit = s.transit.sendRefresh := by
  simp [State.markFrameStart, State.openFrame]

/-- What the account of the frame just begun leaves as it was (R35). -/
@[simp] theorem MarkAligner.openFrame_kept (m : MarkAligner) (cause : FrameCause) (state : TimebaseState) :
    (m.openFrame cause state).missRun = m.missRun ∧ (m.openFrame cause state).silenceCount = m.silenceCount ∧
    (m.openFrame cause state).strayCount = m.strayCount ∧ (m.openFrame cause state).lastCapture = m.lastCapture ∧
    (m.openFrame cause state).level = m.level ∧ (m.openFrame cause state).samples = m.samples ∧
    (m.openFrame cause state).catchArmed = false ∧ (m.openFrame cause state).began = state := by
  unfold MarkAligner.openFrame MarkAligner.creditOwn
  dsimp only
  (repeat' split) <;> simp

/-- Only a natural frame start reaches the seek silence (R26). -/
theorem MarkAligner.silenceReached_natural (m : MarkAligner) (cause : FrameCause) (ended : TimebaseState)
    (h : m.silenceReached cause ended = true) :
    cause = .natural ∧ m.began = .seeking ∧ ended = .seeking ∧ 1 ≤ m.silenceCount := by
  simp only [MarkAligner.silenceReached, MarkAligner.countsSilence, Bool.and_eq_true, decide_eq_true_eq,
    Config.seekSilence] at h
  obtain ⟨⟨h1, h2, h3⟩, h4⟩ := h
  exact ⟨h1, h2, h3, Nat.le_of_succ_le_succ (of_decide_eq_true h4)⟩

/-- The frame start's report: EVENT MARK_LOST where the miss run becomes 4, then EVENT TRACKING where seek silence is reached
(R26, R34). -/
theorem State.markFrameStart_report (s : State) (cause : FrameCause) (ended : TimebaseState) :
    (s.mark.missReached cause ended = false → s.mark.silenceReached cause ended = false →
      (s.markFrameStart cause ended).report = s.report) ∧
    (s.mark.missReached cause ended = true → s.mark.silenceReached cause ended = false →
      (s.markFrameStart cause ended).report =
        s.report.post (.event (s.tb.frameStart cause s.member.state).afn
          (.markLost (s.tb.frameStart cause s.member.state).stateBefore))) ∧
    (s.mark.missReached cause ended = false → s.mark.silenceReached cause ended = true →
      (s.markFrameStart cause ended).report =
        s.report.post (.event (s.tb.frameStart cause s.member.state).afn .trackingSilence)) := by
  refine ⟨?_, ?_, ?_⟩ <;> intro h1 h2 <;>
    simp [State.markFrameStart, State.takeSilence, State.reportMarkLost, State.openFrame, h1, h2, State.trackOrder,
      State.postEvent]

/-- A frame that counts for the miss run was TRACKING from its first pixel to its last, so no seek silence meets it. -/
theorem MarkAligner.countsMiss_tracking (m : MarkAligner) (cause : FrameCause) (ended : TimebaseState)
    (h : m.countsMiss cause ended = true) : m.silenceReached cause ended = false := by
  simp only [MarkAligner.countsMiss, decide_eq_true_eq] at h
  simp [MarkAligner.silenceReached, MarkAligner.countsSilence, h.2.2]

/-- Every frame start but the first puts the counters at (1, 1) and advances AFN by one (R4, R8). -/
theorem State.frameStart_counters (s : State) (cause : FrameCause) (ended : TimebaseState) :
    (s.frameStart cause ended).tb =
      { s.tb.frameStart cause s.member.state with state := (s.frameStart cause ended).tb.state } := by
  have h : (s.frameStart cause ended).tb = ((s.markFrameStart cause ended).memberFrameStart cause
      (s.mark.handedMissRun cause ended) s.roster.results.isSome).tb := by simp [State.frameStart]
  rw [h]
  by_cases hc : cause = .first
  · simp [State.memberFrameStart, hc, State.markFrameStart_tb]
  · by_cases he : (s.markFrameStart cause ended).entersListen (s.mark.handedMissRun cause ended)
    · rw [State.memberFrameStart_enter _ _ _ _ hc he]; simp [State.markFrameStart_tb]
    · obtain ⟨w, _, e⟩ := State.memberFrameStart_stay _ cause _ s.roster.results.isSome hc he
      rw [e]; simp [State.markFrameStart_tb]

/-- A frame start at which the station enters LISTEN (R24, R66, R99, R101). -/
theorem State.frameStart_enter (s : State) (cause : FrameCause) (ended : TimebaseState) (hc : cause ≠ .first)
    (h : (s.markFrameStart cause ended).entersListen (s.mark.handedMissRun cause ended)) :
    (s.frameStart cause ended).tb.state = .seeking ∧
    (s.frameStart cause ended).mark = (s.markFrameStart cause ended).mark.seekOrder ∧
    (s.frameStart cause ended).member = { (s.markFrameStart cause ended).member.enterListen with
      verdictLevel := none
      inputSilence := min ((s.markFrameStart cause ended).member.inputSilence + 1) 255 } ∧
    (s.frameStart cause ended).roster = State.resetRoster ∧
    (s.frameStart cause ended).report = (s.markFrameStart cause ended).report := by
  unfold State.frameStart
  simp only [State.latchFrame_frame]
  rw [State.memberFrameStart_enter _ _ _ _ hc h]
  simp

/-! ## Edges in TRACKING (R28) -/

/-- An edge past line 1 is a catch edge where catch armed is set or its line lies in the catch zone (R17, R28). -/
theorem State.edgeAt_catch (s : State) (ln px : Nat) (hr : s.running = true) (ht : s.tb.state = .tracking)
    (hc : s.mark.catchArmed = true ∨ s.settings.cz ≤ ln) (h1 : 2 ≤ ln) (h2 : ln ≤ s.settings.fl) (h3 : 1 ≤ px)
    (h4 : px ≤ s.settings.ll) :
    s.edgeAt ln px = ({ s.moveTo ln px with mark := { s.mark with level := .low } } : State).catchEdge ln px := by
  have a := s.moveTo_ln ln px (by omega) h2 h3 h4
  have b := s.moveTo_px ln px (by omega) h2 h3 h4
  have hln : ln ≠ 1 := by omega
  rcases hc with hc | hc <;>
    simp_all [State.edgeAt, State.edgeHere, State.trackingEdge, MarkAligner.classify, State.catchZoneFlag, State.inLines,
      State.running]

/-- An edge that is not on-time own is stray where catch armed is clear and its line lies before the catch zone (R17, R28). -/
theorem State.edgeAt_stray (s : State) (ln px : Nat) (ht : s.tb.state = .tracking) (hc : s.mark.catchArmed = false)
    (hz : ln < s.settings.cz) (hcl : 1 ≤ s.settings.cl) (h1 : 1 ≤ ln) (h2 : ln ≤ s.settings.fl) (h3 : 1 ≤ px)
    (h4 : px ≤ s.settings.ll) (hn : ¬(ln = 1 ∧ px ≤ s.settings.cl)) :
    s.edgeAt ln px = ({ s.moveTo ln px with mark := { s.mark with level := .low } } : State).strayEdge ln px := by
  have a := s.moveTo_ln ln px h1 h2 h3 h4
  have b := s.moveTo_px ln px h1 h2 h3 h4
  have hf : ¬(ln = 1 ∧ px = 1) := fun h => hn ⟨h.1, by omega⟩
  have hz' : ¬s.settings.cz ≤ ln := by omega
  have hs : ¬(ln = 1 ∧ px = 1 ∧ s.mark.silenceHere = true) := fun h => hf ⟨h.1, h.2.1⟩
  simp [State.edgeAt, State.edgeHere, State.trackingEdge, MarkAligner.classify, State.catchZoneFlag, State.inLines, a, b,
    hs, hn, hc, hz', ht]

/-! ## Reload (R6, R7) -/

/-- The cut ends of a reload leave AFN and the timebase state as they are. -/
theorem State.cutEnds_tb (s : State) :
    (s.cutSlot).cutImageLine.tb = { s.tb with
      openSlot := (s.cutSlot).cutImageLine.tb.openSlot, openLine := (s.cutSlot).cutImageLine.tb.openLine } := by
  unfold State.cutImageLine State.cutSlot State.takeOutcome
  (repeat' split) <;> simp

/-- A reload is one frame start with one advance of AFN (R6, R8). -/
theorem State.reload_counters (s : State) (track : Bool) :
    (s.reload track).tb.ln = 1 ∧ (s.reload track).tb.px = 1 ∧ (s.reload track).tb.afn = s.tb.afn + 1 ∧
    (s.reload track).tb.wrapMet = false := by
  unfold State.reload; dsimp only
  rw [State.frameStart_counters]
  have h := s.cutEnds_tb
  cases track
  · simp [Timebase.frameStart]; rw [h]
  · simp [Timebase.frameStart, State.trackOrder]; rw [h]

/-- A frame start of cause RELOAD, for a station that does not enter LISTEN at it (R25, R30, R31, R34, R35). -/
theorem State.frameStart_reload (s : State) (ended : TimebaseState)
    (hno : ¬s.entersListen (s.mark.handedMissRun .reload ended)) :
    (s.frameStart .reload ended).tb.state = s.tb.state ∧
    (s.frameStart .reload ended).mark = (s.mark.closeFrame .reload ended).openFrame .reload s.tb.state ∧
    (s.frameStart .reload ended).member.state = s.member.state ∧
    (s.mark.missReached .reload ended = false → (s.frameStart .reload ended).report = s.report) ∧
    (s.frameStart .reload ended).link = s.link.frameStart := by
  have hs : s.mark.silenceReached .reload ended = false := by
    simp [MarkAligner.silenceReached, MarkAligner.countsSilence]
  have hm : (s.markFrameStart .reload ended).member = s.member := by simp [State.markFrameStart_member, hs]
  have hn : ¬(s.markFrameStart .reload ended).entersListen (s.mark.handedMissRun .reload ended) := by
    simpa [State.entersListen, hm] using hno
  obtain ⟨w, _, e⟩ := State.memberFrameStart_stay _ .reload _ s.roster.results.isSome (by simp) hn
  unfold State.frameStart
  simp only [State.latchFrame_frame]
  rw [e]
  refine ⟨by simp [State.markFrameStart_tb, hs], by simp [State.markFrameStart_mark, hs], by simp [hm], ?_, by simp⟩
  intro h
  exact (s.markFrameStart_report .reload ended).1 h hs

end Sys2Proof.Machine
end

