-- ==== Sys2Proof/Laws/Slots.lean ====
section
/-! SUPPORT. What the orders of the swap line can do to the Slot Table (R116, R118, R124, R126, R127). -/

namespace Sys2Proof.Machine

open Sys2Proof

/-! ## Slots that become FREE (R116) -/

@[simp] theorem SlotTable.free_slot (t : SlotTable) (i k : Nat) :
    (t.free i).slot k = if k = i then State.freeSlot else t.slot k := by
  unfold SlotTable.slot SlotTable.free
  rw [List.getElem?_modify]
  by_cases h : i = k
  · subst h; cases t.slots[i]? <;> simp
  · have : ¬k = i := fun e => h e.symm
    cases t.slots[k]? <;> simp [h, this]

/-- The slots of the list read FREE, and every other reads as before. -/
theorem SlotTable.freeAll_slot (k : Nat) : ∀ (stale : List Nat) (t : SlotTable),
    (t.freeAll stale).slot k = if k ∈ stale then State.freeSlot else t.slot k
  | [], t => by simp [SlotTable.freeAll]
  | i :: rest, t => by
    rw [SlotTable.freeAll, SlotTable.freeAll_slot k rest]
    by_cases h : k ∈ rest <;> by_cases h2 : k = i <;> simp [h, h2]

@[simp] theorem SlotTable.freeAll_kept : ∀ (stale : List Nat) (t : SlotTable),
    (t.freeAll stale).shown = t.shown ∧ (t.freeAll stale).refused = t.refused ∧
    (t.freeAll stale).defective = t.defective ∧ (t.freeAll stale).readyQueue = t.readyQueue ∧
    (t.freeAll stale).skipped = t.skipped
  | [], t => by simp [SlotTable.freeAll]
  | i :: rest, t => by
    obtain ⟨a, b, c, d, e⟩ := SlotTable.freeAll_kept rest (t.free i)
    exact ⟨a, b, c, d, e⟩

/-- A skip leaves the slots of its list FREE and every other as it was (R124, R127). -/
theorem SlotTable.skip_slot (t : SlotTable) (stale : List Nat) (k : Nat) :
    (t.skip stale).slot k = if k ∈ stale then State.freeSlot else t.slot k := by
  have := SlotTable.freeAll_slot k stale t
  simpa [SlotTable.skip, SlotTable.slot] using this

/-- The slot that was SHOWN becomes FREE (R124 step 1, R126). -/
@[simp] theorem SlotTable.releaseShown_slot (t : SlotTable) (k : Nat) :
    t.releaseShown.slot k = if t.shown = some k then State.freeSlot else t.slot k := by
  unfold SlotTable.releaseShown
  cases h : t.shown with
  | none => simp
  | some i =>
    have := t.free_slot i k
    simp only [SlotTable.slot] at this ⊢
    simp only [this, Option.some.injEq, eq_comm]

@[simp] theorem SlotTable.releaseShown_kept (t : SlotTable) :
    t.releaseShown.readyQueue = t.readyQueue ∧ t.releaseShown.refused = t.refused ∧
    t.releaseShown.defective = t.defective ∧ t.releaseShown.skipped = t.skipped ∧ t.releaseShown.shown = none ∧
    t.releaseShown.slots.length = t.slots.length := by
  unfold SlotTable.releaseShown SlotTable.free; split <;> simp_all

/-- Slot `i` becomes SHOWN (R124 step 2). -/
theorem SlotTable.showSlot_slot (t : SlotTable) (i k : Nat) (h : i < t.slots.length) :
    (t.showSlot i).slot k = if k = i then { t.slot i with state := .shown } else t.slot k := by
  unfold SlotTable.slot SlotTable.showSlot
  simp only [List.getElem?_modify]
  by_cases c : k = i
  · subst c; simp [List.getElem?_eq_getElem h]
  · have : ¬i = k := fun e => c e.symm
    cases t.slots[k]? <;> simp [this, c]

/-! ## The order of the ready queue (R1, R118) -/

theorem newer_irrefl (a : Content) : newer a a = false := by simp [newer]

theorem newer_asymm {a b : Content} (h : newer a b = true) : newer b a = false := by
  simp only [newer, decide_eq_true_eq, decide_eq_false_iff_not] at *
  have : (b - a).toNat = (65536 - (a - b).toNat) % 65536 := by bv_omega
  omega

/-- Of two slots of an ordered ready queue, the content of the later is the newer (R118). -/
theorem SlotTable.ordered_pair (t : SlotTable) (ho : t.readyList.Pairwise (fun a b => newer b a = true)) (i k : Nat)
    (hi : i ∈ t.readyQueue) (hk : k ∈ t.readyQueue) (a b : Content) (ha : t.contentOf i = some a)
    (hb : t.contentOf k = some b) (hne : i ≠ k) : newer a b = true ∨ newer b a = true := by
  unfold SlotTable.readyList at ho
  rw [List.pairwise_filterMap] at ho
  generalize t.readyQueue = q at *
  induction q with
  | nil => cases hi
  | cons x q ih =>
    rw [List.pairwise_cons] at ho
    rcases List.mem_cons.mp hi with rfl | hi' <;> rcases List.mem_cons.mp hk with rfl | hk'
    · exact absurd rfl hne
    · exact Or.inr (ho.1 k hk' a ha b hb)
    · exact Or.inl (ho.1 i hi' b hb a ha)
    · exact ih ho.2 hi' hk'

/-- The READY slot that holds a content is the one slot of the ready queue that holds it (R118). -/
theorem SlotTable.readySlotOf_eq (t : SlotTable) (ho : t.readyList.Pairwise (fun a b => newer b a = true)) (i : Nat)
    (c : Content) (hi : i ∈ t.readyQueue) (hc : t.contentOf i = some c) : t.readySlotOf c = some i := by
  unfold SlotTable.readySlotOf
  cases hf : t.readyQueue.find? (fun k => decide (t.contentOf k = some c)) with
  | none => exact absurd hc (by simpa using List.find?_eq_none.mp hf i hi)
  | some k =>
    have hk : t.contentOf k = some c := by simpa using List.find?_some hf
    have hm := List.mem_of_find?_eq_some hf
    by_cases h : i = k
    · rw [h]
    · have := t.ordered_pair ho i k hi hm c c hc hk h
      rw [newer_irrefl] at this; simp at this

/-! ## The order to swap (R124) -/

/-- What an order to swap to `c` can do, where READY slot `i` holds it: SHOWN is `i`, the slot shown before and the READY
slots older than `c` are FREE, the newer ones stay READY, and the older ones are counted as skipped (R124). -/
theorem SlotTable.swapTo_spec (t : SlotTable) (i : Nat) (c : Content) (hcons : t.Consistent) (hord : t.Ordered)
    (hi : i ∈ t.readyQueue) (hc : t.contentOf i = some c) :
    (t.swapTo c).shown = some i ∧ (t.swapTo c).refused = t.refused ∧ (t.swapTo c).defective = t.defective ∧
    (t.swapTo c).readyQueue = t.readyQueue.filter (fun k => match t.contentOf k with
      | some r => newer r c
      | none => false) ∧
    (t.swapTo c).skipped = t.skipped +
      BitVec.ofNat 16 (t.readyQueue.length - (t.swapTo c).readyQueue.length - 1) ∧
    ∀ k, (t.swapTo c).slot k =
      if k = i then { t.slot i with state := .shown }
      else if t.shown = some k ∨ k ∈ t.readyQueue ∧ k ∉ (t.swapTo c).readyQueue then State.freeSlot
      else t.slot k := by
  obtain ⟨hlen, hnd, hlt, hsl, hrdy, hshn, hcont, _⟩ := hcons
  obtain ⟨ho, hs⟩ := hord
  have hil := hlt i hi
  have his : (t.slot i).state = .ready := (hrdy i hil).mp hi
  have hne : t.shown ≠ some i := by
    intro h; have := (hshn i hil).mp h; rw [his] at this; cases this
  have hready : ∀ k ∈ t.readyQueue, ∃ r, t.contentOf k = some r := by
    intro k hk
    cases h : t.contentOf k with
    | some r => exact ⟨r, rfl⟩
    | none =>
      have := (hcont k (hlt k hk)).mp h
      rw [(hrdy k (hlt k hk)).mp hk] at this; cases this
  have hsr : ∀ k ∈ t.readyQueue, t.shown ≠ some k := by
    intro k hk h
    have := (hshn k (hlt k hk)).mp h; rw [(hrdy k (hlt k hk)).mp hk] at this; cases this
  -- the table after steps 1 and 2 of R124
  generalize hm : t.releaseShown.showSlot i = m
  have hmq : m.readyQueue = t.readyQueue.filter (fun k => decide (k ≠ i)) := by subst hm; simp [SlotTable.showSlot]
  have hms : ∀ k, m.slot k = if k = i then { t.slot i with state := .shown } else if t.shown = some k then State.freeSlot
      else t.slot k := by
    intro k; subst hm
    rw [SlotTable.showSlot_slot _ _ _ (by simp [hlen, hil])]
    simp [hne]
  have hmc : ∀ k ∈ t.readyQueue, m.contentOf k = t.contentOf k := by
    intro k hk; unfold SlotTable.contentOf; rw [hms]; split
    · rename_i h; subst h; rfl
    · simp [hsr k hk]
  have holder : m.olderThan c = t.readyQueue.filter (fun k => match t.contentOf k with
      | some r => newer c r
      | none => false) := by
    unfold SlotTable.olderThan; rw [hmq, List.filter_filter]
    apply List.filter_congr
    intro k hk
    rw [hmc k hk]
    obtain ⟨r, hr⟩ := hready k hk
    rw [hr]
    by_cases h : k = i
    · subst h; rw [hc] at hr; cases hr; simp [newer_irrefl]
    · simp [h]
  have hmem : ∀ k ∈ t.readyQueue, k ≠ i → (k ∈ m.olderThan c ↔ ¬(∃ r, t.contentOf k = some r ∧ newer r c = true)) := by
    intro k hk hki
    obtain ⟨r, hr⟩ := hready k hk
    rw [holder]; simp only [List.mem_filter, hk, true_and, hr, Option.some.injEq, exists_eq_left']
    rcases t.ordered_pair ho k i hk hi r c hr hc hki with h | h
    · simp [h, newer_asymm h]
    · simp [h, newer_asymm h]
  have hsw : t.swapTo c = m.skip (m.olderThan c) := by
    unfold SlotTable.swapTo; rw [t.readySlotOf_eq ho i c hi hc]; simp only [hm]
  have hq : (t.swapTo c).readyQueue = t.readyQueue.filter (fun k => match t.contentOf k with
      | some r => newer r c
      | none => false) := by
    rw [hsw]; simp only [SlotTable.skip, hmq, List.filter_filter]
    apply List.filter_congr
    intro k hk
    obtain ⟨r, hr⟩ := hready k hk
    rw [hr]
    by_cases h : k = i
    · subst h; rw [hc] at hr; cases hr; simp [newer_irrefl]
    · have := hmem k hk h
      rw [hr] at this
      simp only [Option.some.injEq, exists_eq_left'] at this
      by_cases hh : newer r c = true
      · simp [h, this, hh]
      · simp [h, this, hh]
  have hcount : (m.olderThan c).length = t.readyQueue.length - (t.swapTo c).readyQueue.length - 1 := by
    have hlq : m.readyQueue.length = t.readyQueue.length - 1 := by
      rw [hmq, ← List.length_erase_of_mem hi, hnd.erase_eq_filter]
      congr 1; apply List.filter_congr; intro k _; rw [bne, decide_not]; rfl
    obtain ⟨p, hp⟩ : ∃ p : Nat → Bool, m.olderThan c = m.readyQueue.filter p := ⟨_, rfl⟩
    have hsplit : (t.swapTo c).readyQueue = m.readyQueue.filter (fun k => !p k) := by
      rw [hsw]; simp only [SlotTable.skip, hp]
      apply List.filter_congr; intro k hk
      cases h : p k <;> simp [hk, h]
    have := List.length_eq_length_filter_add (l := m.readyQueue) p
    rw [← hsplit, ← hp] at this
    omega
  refine ⟨?_, ?_, ?_, hq, ?_, ?_⟩
  · rw [hsw]; subst hm; simp [SlotTable.skip, SlotTable.showSlot]
  · rw [hsw]; subst hm; simp [SlotTable.skip, SlotTable.showSlot]
  · rw [hsw]; subst hm; simp [SlotTable.skip, SlotTable.showSlot]
  · rw [← hcount, hsw]; subst hm; simp [SlotTable.skip, SlotTable.showSlot]
  · intro k
    rw [hq, hsw, SlotTable.skip_slot, hms]
    by_cases hk : k ∈ t.readyQueue
    · by_cases hki : k = i
      · subst hki
        have : k ∉ m.olderThan c := by rw [holder]; simp [hc, newer_irrefl]
        simp [this]
      · have := hmem k hk hki
        obtain ⟨r, hr⟩ := hready k hk
        rw [hr] at this; simp only [Option.some.injEq, exists_eq_left'] at this
        by_cases hh : newer r c = true
        · simp [hki, this, hh, hk, hr, hsr k hk]
        · simp [hki, this, hh, hk, hr, hsr k hk]
    · have : k ∉ m.olderThan c := by rw [holder]; simp [hk]
      simp [this, hk]
end Sys2Proof.Machine
end

