-- ==== Sys2Proof/Tests/Slice0.lean ====
section
/-! SUPPORT. Small tests of single steps, and for each statement with hypotheses a state that meets them. The expected results
come from the manual's tables and rules, named at each test. -/

namespace Sys2Proof.Tests

-- One test after another: side by side they fill the memory that a file may use.
set_option Elab.async false

open Sys2Proof Sys2Proof.Machine

/-! ## Small states -/

/-- A small image's settings: frames of 32 lines of 100 pixels, two stations, a window of 4 by 2. -/
def small : Settings :=
  { Settings.zero with
    n := 2, ll := 100, fl := 32, ha0 := 1, ha1 := 20, va0 := 2, va1 := 3, hs0 := 1, hs1 := 5, vs0 := 1, vs1 := 1
    wx := 2, wy := 0, ww := 4, wh := 2, sl := 8, cl := 4, tw := 4, vl := 20, sw := 22, cz := 23
    border := 0x010203, fill := 0x090807, clampLow := 0x10, clampHigh := 0xEB
    hsHigh := true, vsHigh := true, deHigh := true, flipHigh := true, memoryBytes := 16777216, reportDivisor := 16 }

/-- The same image with a window of 32 columns, whose lines take two bursts. -/
def wide : Settings := { small with ww := 32, ha1 := 60 }

/-- Station 1 after acceptance, in a membership and a timebase state. -/
def station (m : MembershipState) (st : TimebaseState) : State :=
  { State.reset with
    settings := small
    tb := { State.resetTimebase with state := st }
    member := { State.resetMember with state := m }
    loader := { State.resetLoader with phase := .accepted, index := 1 } }

/-- A MEMBER that tracks. -/
def aMember : State := station .member .tracking

/-- The table of Table 7-2: SHOWN 410, READY 411 and 412, slot 3 FREE. -/
def table72 : SlotTable :=
  { State.resetTable with
    slots := [⟨.shown, some 410, 0, false⟩, ⟨.ready, some 411, 0, false⟩, ⟨.ready, some 412, 0, false⟩, State.freeSlot]
    readyQueue := [1, 2]
    shown := some 0 }

/-- A MEMBER with the table of Table 7-2. -/
def member72 : State := { aMember with table := table72 }

/-- The state after a command; the state itself where the command stops. -/
def after (c : Instr) (s : State) : State :=
  match exec c s with
  | .next t => t
  | _ => s

/-- The commands of a run, one after another. -/
def afterAll (cs : List Instr) (s : State) : State := cs.foldl (fun t c => after c t) s

/-- The state with these reports on their way to the PCLK domain. -/
def reported (rs : List InputReport) (s : State) : State := { s with transit := { s.transit with toPclk := rs } }

/-- The state with these items on their way to the Memory Port. -/
def carrying (ms : List MemoryItem) (s : State) : State := { s with transit := { s.transit with toMemory := ms } }

/-- The state with these items of the reader on their way to the Memory Port. -/
def asking (ms : List ReaderMessage) (s : State) : State := { s with transit := { s.transit with readerItems := ms } }

/-- The state with this read data on its way to the Output Pipe. -/
def delivering (ds : List ReadData) (s : State) : State := { s with transit := { s.transit with reads := ds } }

/-- The state with its report queue full. -/
def full (s : State) : State :=
  { s with report := { s.report with queue := List.replicate 4 ⟨.event 0 .founded, 0⟩ } }

/-! ## WellFormed refuses ill-formed operands -/

theorem test_wf_imageReadDone : (Instr.imageReadDone [0]).wellFormed = false := by decide
theorem test_wf_lineStart : (Instr.lineStart 1).wellFormed = false := by decide
theorem test_wf_markEdge : (Instr.markEdge (.pixel 0 1)).wellFormed = false := by decide
theorem test_wf_slotBegin : (Instr.slotBegin 16).wellFormed = false := by decide
theorem test_wf_slotEnd : (Instr.slotEnd 16).wellFormed = false := by decide
theorem test_wf_recordExpiry : (Instr.recordExpiry 16).wellFormed = false := by decide
theorem test_wf_rollCallClose : (Instr.rollCallClose []).wellFormed = false := by decide
theorem test_wf_imageLineStart : (Instr.imageLineStart 2048).wellFormed = false := by decide
theorem test_wf_imageLineEnd : (Instr.imageLineEnd 2048).wellFormed = false := by decide
theorem test_wf_underrun : (Instr.underrun 0 4096).wellFormed = false := by decide
theorem test_wf_readerCompletion : (Instr.readerCompletion ⟨0, 0, 0, []⟩).wellFormed = false := by decide
theorem test_wf_damagedControlWord : (Instr.damagedControlWord 0x1019C5#24).wellFormed = false := by decide +kernel
theorem test_wf_writerClaim : (Instr.writerClaim 4 0).wellFormed = false := by decide
theorem test_wf_readerClaim : (Instr.readerClaim (.claims 4 0)).wellFormed = false := by decide
theorem test_wf_memoryDiscard : (Instr.memoryDiscard 4).wellFormed = false := by decide
theorem test_wf_readerWithdrawal : (Instr.readerWithdrawal 2048).wellFormed = false := by decide
theorem test_wf_talkCellSettled : (Instr.talkCellSettled 8192 (Samples.steady .low)).wellFormed = false := by decide

/-! ## Control words, written out by hand from R185 and Table 13-2 -/

theorem test_word_frameOpen : decodeInputWord true 0x1019C5#24 = .frameOpen 412 := by decide +kernel
theorem test_word_frameFlags : decodeInputWord true 0x20001F#24 = .frameFlags 1 := by decide +kernel
theorem test_word_lineOpen : decodeInputWord true 0x30000A#24 = .lineOpen 0 := by decide +kernel
theorem test_word_frameClose : decodeInputWord true 0x40002D#24 = .frameClose 2 := by decide +kernel
theorem test_word_pixel : decodeInputWord false 0x1019C5#24 = .pixelWord 0x1019C5#24 := by decide
theorem test_word_unknownType : decodeInputWord true 0x50000D#24 = .damagedControlWord 0x50000D#24 := by decide +kernel
theorem test_word_damaged : decodeInputWord true 0x1019C4#24 = .damagedControlWord 0x1019C4#24 := by decide +kernel

/-! ## Start-up -/

/-- An image of the small settings, its check field worked out by R184. -/
def image : List Byte :=
  [0x54, 0x4C, 1, 2, 0, 0x64, 0, 0x20, 0, 1, 0, 0x14, 0, 2, 0, 3, 0, 1, 0, 5, 0, 1, 0, 1, 0, 2, 0, 0, 0, 4, 0, 2] ++
  [8, 4, 0, 4, 0, 0x14, 0, 0x16, 0, 0x17, 1, 2, 3, 9, 8, 7, 0x10, 0xEB, 0xF, 0, 0, 0, 0x10, 0, 0, 0, 0, 0, 0, 0] ++
  [0x32, 0x0B]

/-- A part that reads, at this attempt with these failed ones. -/
def reading (attempts : Nat) (faults : List Nat) : State :=
  { State.reset with loader := ⟨.reading, 1, attempts, faults, List.replicate 64 none, false⟩ }

theorem test_image_settings : settingsOf image = small := by decide

/-- The check field of `image` is the CRC-16 over its first 62 bytes (R184), worked out in two halves. -/
theorem test_image_crc : crc16 msbFirst (image.take 62) = 0x320B#16 := by
  have h1 : crc16 msbFirst (image.take 31) = 0x906D#16 := by decide +kernel
  have h2 : ((image.take 62).drop 31).foldl (fun r b => (msbFirst b).foldl crcStep r) 0x906D#16 = 0x320B#16 := by
    decide +kernel
  have h3 : image.take 62 = image.take 31 ++ (image.take 62).drop 31 := by decide +kernel
  rw [h3, crc16, List.foldl_append]
  rw [crc16] at h1
  rw [h1, h2]

theorem test_image_checks (index : BitVec 4) :
    imageChecks index image = List.replicate 9 true ++ [decide (index.toNat < 2)] := by
  have h : checkCrc image = true := by unfold checkCrc; rw [test_image_crc]; decide +kernel
  unfold imageChecks
  rw [h, test_image_settings]
  rfl

theorem test_image_accepted : faultCode 1 image = none := by rw [faultCode, test_image_checks]; decide
theorem test_image_index : faultCode 2 image = some 10 := by rw [faultCode, test_image_checks]; decide
theorem test_image_signature : faultCode 1 (List.replicate 64 0xFF) = some 1 := by decide

theorem test_reset : (after (.reset .pin) member72).table = State.resetTable := by decide
/-- A reader burst cut short leaves its area to the device: 64 free bytes (R148). -/
theorem test_reset_cutsReader :
    (after (.reset .pin) { member72 with port := ⟨.absent, [], [], some (.reader 0 0 0)⟩ }).free = 64 := by decide
theorem test_resetRelease : (after (.resetRelease ⟨3, true⟩) State.reset).loader.attempts = 1 := by decide
/-- With no pixel clock SCS stays high until it runs (R168). -/
theorem test_resetRelease_noClock :
    (after (.resetRelease ⟨3, false⟩) State.reset).pins.scs = .high ∧
    (after (.resetRelease ⟨3, false⟩) State.reset).tick.pins.scs = .low := by decide
theorem test_imageReadDone_accepts : (after (.imageReadDone image) (reading 1 [])).member.state = .listen := by
  have h : faultCode (reading 1 []).loader.index image = none := test_image_accepted
  have hl : image.length = 64 := by decide +kernel
  have hp : (reading 1 []).loader.phase = .reading ∧ (reading 1 []).loader.clockAbsent = false := ⟨rfl, rfl⟩
  simp only [after, exec, execImageReadDone, State.imageRead, h, hl, hp, test_image_settings, and_self, if_true]
  generalize image.map some = received
  rfl
theorem test_imageReadDone_halts :
    (after (.imageReadDone (List.replicate 64 0xFF)) (reading 3 [1, 2])).pins.attn = .high := by decide +kernel

/-! ## The Timebase and MARK -/

theorem test_frameStart_advances : (after .frameStart aMember).tb.afn = 1 := by decide
theorem test_frameStart_latches : (after .frameStart member72).out.latched = some 0 := by decide

/-- Three frames missed, and a fourth that ends without an on-time edge (R34). -/
def thirdMiss (m : MembershipState) : State :=
  { station m .tracking with mark := { State.resetMark with missRun := 3, began := .tracking } }

theorem test_markLost_member :
    (after .markLost (thirdMiss .member)).member.withdrawal = some .markLost := by decide
theorem test_markLost_joining : (after .markLost (thirdMiss .joining)).member.state = .listen := by decide

/-- A station three misses on, at the end of its frame's last pixel or within it, with a LEAVE on its way. -/
def leavingAtTheWrap (m : MembershipState) (phase : PixelPhase) : State :=
  reported [.leave] { thirdMiss m with
    tb := { State.resetTimebase with state := .tracking, ln := 32, px := 100, phase := phase, stateAtEnd := m } }

/-- MARK_LOST tells of the state at the last pixel clock of the frame just ended (R34): a LEAVE taken first at the frame start's
own pixel clock is after it, and one taken within the last pixel is not. -/
theorem test_frameStart_afterLeave :
    (afterAll [.leave, .frameStart] (leavingAtTheWrap .joining .ended)).report.queue.map QueuedRecord.body =
      [.event 0 (.parked .joining), .event 1 (.markLost .joining)] ∧
    (afterAll [.leave, .frameStart] (leavingAtTheWrap .resting .ended)).report.queue.map QueuedRecord.body =
      [.event 0 (.parked .resting), .event 1 (.markLost .resting)] ∧
    (afterAll [.leave, .frameStart] (leavingAtTheWrap .joining .begun)).report.queue.map QueuedRecord.body =
      [.event 0 (.parked .joining), .event 1 (.markLost .parked)] := by decide

/-- One silent frame counted in SEEKING (R26). -/
def silentOnce : State := { station .listen .seeking with mark := { State.resetMark with silenceCount := 1 } }

theorem test_seekSilence : (after .seekSilence silentOnce).member.state = .joining := by decide

/-- A PARKED station, with the rejoin request set or not, one silent frame counted. -/
def silentParked (rejoin : Bool) : State :=
  { silentOnce with member := { State.resetMember with state := .parked, rejoin := rejoin } }

/-- An edge at the frame start of seek silence has the one record, in place of the silence's, and starts joining from LISTEN, also
where that frame start has brought a PARKED station there (R26, R100, R115). -/
theorem test_markEdge_atSilence :
    ((afterAll [.seekSilence, .markEdge (.pixel 1 1)] silentOnce).report.queue = [⟨.event 1 (.trackingEdge 0), 0⟩] ∧
      (afterAll [.seekSilence, .markEdge (.pixel 1 1)] silentOnce).member.state = .joining) ∧
    ((after .seekSilence (silentParked true)).member.state = .listen ∧
      (afterAll [.seekSilence, .markEdge (.pixel 1 1)] (silentParked true)).report.queue =
        [⟨.event 1 (.trackingEdge 0), 0⟩] ∧
      (afterAll [.seekSilence, .markEdge (.pixel 1 1)] (silentParked true)).member.state = .joining) := by decide

/-- A RESTING station with a rest count. -/
def resting (n : Nat) : State :=
  { station .resting .tracking with member := { State.resetMember with state := .resting, rest := n } }

theorem test_restEnd : (after .restEnd (resting 1)).member.state = .listen := by decide
theorem test_restEnd_notDue : after .restEnd (resting 2) = resting 2 := by decide

/-- A MEMBER whose input has been silent for as many frames as the timeout (R102). -/
def silentInput : State :=
  { aMember with
    settings := { small with inputTimeout := 5 }
    member := { State.resetMember with state := .member, inputSilence := 5 } }

theorem test_inputTimeout : (after .inputTimeout silentInput).member.withdrawal = some .inputSilent := by decide

/-- The panel's frame start with slot 0 latched: the frame start first, then lines 0 and 1 of a window of two lines (R158). -/
theorem test_frameStart_places :
    (after .frameStart member72).out.places = [.holds 0 0 .active [], .holds 1 0 .active [], .vacant] ∧
    (after .frameStart member72).out.nextLine = 2 ∧ (after .frameStart member72).out.urgent = true ∧
    (after .frameStart member72).transit.readerItems = [.item .frameStart, .item (.claims 0 0), .item (.claims 0 1)] ∧
    (after .frameStart { member72 with settings := { small with wh := 1 } }).out.places =
      [.holds 0 0 .active [], .vacant, .vacant] ∧
    (after .frameStart aMember).out.nextLine = 0 ∧
    (after .frameStart aMember).transit.readerItems = [.item .frameStart] := by decide

theorem test_lineStart : (after (.lineStart 32) aMember).tb.ln = 32 := by decide
theorem test_catchZoneEntry : (after .catchZoneEntry aMember).mark.catchArmed = true := by decide
theorem test_markRisingEdge :
    (after .markRisingEdge { aMember with mark := { State.resetMark with level := .low } }).mark.level = .high := by decide

/-- An edge in SEEKING at line 30 cuts 3 lines (R25, R33). -/
theorem test_markEdge_seeking :
    (after (.markEdge (.pixel 30 7)) (station .listen .seeking)).mark.frameRole = .jump 3 := by decide
/-- An edge at (CZ, 1) is a catch edge whether the catch-zone entry of that pixel has been taken or not, and one in the line
before is stray (R17, R27, R28). -/
theorem test_markEdge_catchZone :
    (after (.markEdge (.pixel 23 1)) aMember).mark.frameRole = .follow 10 ∧
    (afterAll [.catchZoneEntry, .markEdge (.pixel 23 1)] aMember).mark.frameRole = .follow 10 ∧
    (after (.markEdge (.pixel 22 100)) aMember).mark.strayCount = 1 := by decide
/-- A MEMBER counts a stray edge and stays where it is (R31). -/
theorem test_markEdge_stray : (after (.markEdge (.pixel 10 7)) aMember).mark.strayCount = 1 := by decide

/-! ## Talk slots -/

/-- A MEMBER in its own talk slot, and in that of station 0. -/
def inSlot (slot : Nat) (rx : ReceivePhase) (received : List Byte) : State :=
  { aMember with
    tb := { State.resetTimebase with state := .tracking, ln := 5, px := 1, openSlot := some slot }
    link := { State.resetLink with rx := rx, received := received } }

/-- What station 0 sends: MEMBER, AFN 7, shown 410, ready 411. -/
def fromZero : Snapshot :=
  { sender := 0, heard := ⟨7, .member, some 410, [411], 3⟩, readyFull := false, inputAlive := true, withdrawPending := false }

/-- The message of that announcement by Table 13-1; its check field is that of R184. -/
theorem test_announcement_bytes :
    fromZero.bytes.take 11 = [0xA0, 0, 7, 0x52, 0x01, 0x9A, 1, 0x01, 0x9B, 0, 3] ∧ fromZero.bytes.length = 13 := by decide
theorem test_announcement_parse : parseAnnouncement 0 fromZero.bytes = some fromZero.heard := by decide +kernel
theorem test_announcement_wrongSlot : parseAnnouncement 1 fromZero.bytes = none := by decide

/-- Each check of R51 by a message that fails it alone: the kind, a state code of 0 and of 4, a count of 4, two equal entries, and
the check field; and a byte more than the count calls for (R50). -/
theorem test_announcement_rejected :
    parseAnnouncement 0 (withCheck (fromZero.body.set 0 0xB0)) = none ∧
    parseAnnouncement 0 (withCheck (fromZero.body.set 3 0x50)) = none ∧
    parseAnnouncement 0 (withCheck (fromZero.body.set 3 0x54)) = none ∧
    parseAnnouncement 0 { fromZero with heard := ⟨7, .member, some 410, [411, 412, 413, 414], 3⟩ }.bytes = none ∧
    parseAnnouncement 0 { fromZero with heard := ⟨7, .member, some 410, [411, 411], 3⟩ }.bytes = none ∧
    parseAnnouncement 0 (fromZero.bytes.set 12 0) = none ∧ fromZero.bytes[12]? ≠ some 0 ∧
    parseAnnouncement 0 (fromZero.bytes ++ [0]) = none ∧
    (parseAnnouncement 0 (withCheck (fromZero.body.set 3 0x42))).map (fun h => h.shown) = some none := by decide +kernel

theorem test_slotBegin_own : (after (.slotBegin 1) aMember).link.tx = .sending := by decide
theorem test_slotBegin_silent : (after (.slotBegin 1) (resting 2)).link.tx = .idle := by decide
theorem test_announceSent :
    (after .announceSent { aMember with link := { State.resetLink with tx := .sending } }).link.tx = .sent := by decide
/-- The first low cell begins a character (R49). -/
theorem test_talkCellSettled :
    (after (.talkCellSettled 2 ⟨.high, .low, .low⟩) (inSlot 0 .waiting [])).link.rx = .inCharacter 1 [] .low := by decide
theorem test_slotEnd_heard :
    ((after (.slotEnd 0) (inSlot 0 .complete fromZero.bytes)).roster.entry 0).record =
      some ⟨fromZero.heard, 0⟩ := by decide +kernel
/-- The own slot with a valid message of its index: another's where the station did not transmit, its own where it did (R54). -/
theorem test_slotEnd_ownSlot :
    ((after (.slotEnd 1) (inSlot 1 .complete { fromZero with sender := 1 }.bytes)).roster.entry 1).outcome = .damaged ∧
    ((after (.slotEnd 1) { inSlot 1 .complete [] with
      link := { State.resetLink with
        rx := .complete, received := { fromZero with sender := 1 }.bytes, tx := .sent } }).roster.entry 1).outcome =
      .heard := by decide +kernel
theorem test_slotEnd_damaged :
    ((after (.slotEnd 0) (inSlot 0 .broken [])).roster.entry 0).outcome = .damaged := by decide

/-- Station 0 unheard for seven frames, with its record still held (R62). -/
def seventhMiss : State :=
  { inSlot 0 .waiting [] with
    roster := { State.resetRoster with
      entries := { State.emptyEntry with missRun := 7, record := some ⟨fromZero.heard, 7⟩ } ::
        List.replicate 15 State.emptyEntry } }

theorem test_recordExpiry : ((after (.recordExpiry 0) seventhMiss).roster.entry 0).record = none := by decide

/-! ## The vote and the swap line -/

/-- The samples of the sixteen cells when stations 0 and 1 claim. -/
def bothClaim : List Samples :=
  [Samples.steady .low, Samples.steady .low] ++ List.replicate 14 (Samples.steady .high)

/-- A MEMBER of an array of two that has heard both stations in step, and holds Table 7-2. -/
def inStep : State :=
  { member72 with
    tb := { State.resetTimebase with state := .tracking, afn := 7 }
    roster := { State.resetRoster with
      previousR := [0, 1]
      entries :=
        { State.emptyEntry with outcome := .heard, heardRun := 2, record := some ⟨fromZero.heard, 7⟩ } ::
        { State.emptyEntry with
          outcome := .heard, heardRun := 2
          record := some ⟨⟨7, .member, some 410, [411, 412], 3⟩, 7⟩ } ::
        List.replicate 14 State.emptyEntry } }

theorem test_rollCallCell : (after .rollCallCell aMember).pins.vote = .low := by decide
theorem test_rollCallClose_consents :
    (after (.rollCallClose bothClaim) inStep).consent.target = some 411 ∧
    (after (.rollCallClose bothClaim) inStep).consent.order = .none := by decide
/-- A MEMBER whose own cell was not heard raises CLAIM_LOST (R105). -/
theorem test_rollCallClose_claimLost :
    (after (.rollCallClose (List.replicate 16 (Samples.steady .high))) inStep).member.withdrawal = some .claimLost := by
  decide
/-- The station that `inStep` is, in a state that holds a claim owed or not, with the other member saying that it did not hear
it. -/
def unheard (state : MembershipState) (owed : Bool) : State :=
  { inStep with
    link := { State.resetLink with claimOwed := owed }
    member := { State.resetMember with state := state }
    roster := { inStep.roster with entries := inStep.roster.entries.modify 0 (fun e =>
      { e with record := some ⟨{ fromZero.heard with heardMap := 1 }, 7⟩ }) } }
/-- P is 1 and Q is 1: unheard-by-majority holds, but not after an own withdrawal until the station has claimed again, though
previous R holds its index (R70, R75). -/
theorem test_rollCallClose_unheard :
    (after (.rollCallClose bothClaim) (unheard .member false)).roster.results.map Results.unheard = some true ∧
    (after (.rollCallClose bothClaim) (unheard .resting true)).roster.results.map Results.unheard = some false ∧
    (afterAll [.rollCallCell, .rollCallClose bothClaim] (unheard .member true)).roster.results.map Results.unheard =
      some true ∧
    (afterAll [.rollCallCell, .rollCallClose bothClaim] (unheard .resting true)).roster.results.map Results.unheard =
      some false := by decide
theorem test_verdictLatch :
    (after .verdictLatch { aMember with consent := { State.resetConsent with order := .veto } }).link.latched = .veto := by
  decide
/-- Two of three samples decide (R38). -/
theorem test_verdictSample : (after (.verdictSample ⟨.high, .low, .high⟩) aMember).consent.verdict = .swap := by decide

/-- The MEMBER of Table 7-2 at the swap line, its consent given for 412. -/
def swapping : State :=
  { member72 with consent := ⟨.voting, some 412, true, .none, .none, .swap, 0⟩ }

/-- Happening 7 of Table 7-3: slot 2 SHOWN, slots 0 and 1 FREE, one skipped. -/
theorem test_swapLine_swaps :
    (after .swapLine swapping).table.slots.map SlotRecord.state = [.free, .free, .shown, .free] ∧
    (after .swapLine swapping).table.skipped = 1 := by decide
/-- A withdrawal keeps what is READY and releases what is SHOWN (R111). -/
theorem test_swapLine_withdraws :
    (after .swapLine { member72 with
      member := { State.resetMember with state := .member, withdrawal := some .unheard } }).table.slots.map
        SlotRecord.state = [.free, .ready, .ready, .free] := by decide

/-! ## The panel -/

/-- A MEMBER that shows slot 0, with image line 0 held up to a count of bursts. -/
def showing (line count : Nat) (bytes : List Byte) : State :=
  { member72 with
    tb := { State.resetTimebase with state := .tracking, ln := 2, px := 2, openLine := some line }
    out := { State.resetOut with
      latched := some 0, nextLine := 2
      places := [.holds 0 count .active bytes, .vacant, .vacant] } }

/-- One burst of colour (0x00, 0x80, 0xFF) in column 0. -/
def aBurst : List Byte := [0x00, 0x80, 0xFF] ++ List.replicate 61 0

theorem test_imageLineStart_underruns : (after (.imageLineStart 0) (showing 0 0 [])).out.underruns = 1 := by decide
/-- R164's example: with the clamp 16 to 235, R 0, G 128, B 255 is shown as R 16, G 128, B 235. -/
theorem test_imageLineStart_shows : (after (.imageLineStart 0) (showing 0 1 aBurst)).pins.pdat = 0x1080EB#24 := by decide
theorem test_underrun : (after (.underrun 0 3) (showing 0 0 [])).pins.pdat = 0x090807#24 := by decide
theorem test_imageLineEnd : (after (.imageLineEnd 0) (showing 0 1 aBurst)).out.currentLine = 1 := by decide
theorem test_readerCompletion_kept :
    (after (.readerCompletion ⟨0, 0, 0, aBurst⟩) (delivering [⟨0, 0, 0, aBurst⟩] (showing 0 0 []))).out.place 0 =
      .holds 0 1 .active aBurst := by decide
theorem test_readerCompletion_discarded :
    (after (.readerCompletion ⟨1, 0, 0, aBurst⟩) (delivering [⟨1, 0, 0, aBurst⟩] (showing 0 0 []))).out =
      (showing 0 0 []).settleUrgent.out := by decide

/-! ## The frame input port -/

/-- Happening 1 of Table 7-3: 413 goes to slot 3. -/
theorem test_frameOpen_admits : (after (.frameOpen 413) member72).table.slot 3 = ⟨.filling, some 413, 0, false⟩ := by decide
/-- Happening 8 of Table 7-3 in kind: a content that is not newer is refused. -/
theorem test_frameOpen_refuses : (after (.frameOpen 412) member72).table.refused = 1 := by decide
/-- A LEAVE straight after a FRAME_OPEN (R141). -/
theorem test_frameFlags_leave :
    (afterAll [.frameOpen 413, .frameFlags 1] member72).transit.toPclk = [.arrival, .leave] := by decide
theorem test_frameFlags_misplaced :
    (afterAll [.frameOpen 413, .frameFlags 1, .frameFlags 1] member72).table.defective = 1 := by decide
theorem test_lineOpen : (afterAll [.frameOpen 413, .lineOpen 0] member72).input.pixelCount = some 0 := by decide
theorem test_lineOpen_wrongIndex : (afterAll [.frameOpen 413, .lineOpen 1] member72).input.state = .draining := by decide

/-- One whole line of the small window. -/
def aLine (j : BitVec 16) : List Instr := [.lineOpen j, .pixelWord 1, .pixelWord 2, .pixelWord 3, .pixelWord 4]

theorem test_pixelWord_completes :
    (afterAll (.frameOpen 413 :: aLine 0) member72).transit.toMemory = [.writerLine 3 0] := by decide
theorem test_pixelWord_longLine :
    (afterAll (.frameOpen 413 :: aLine 0 ++ [.pixelWord 5]) member72).table.defective = 1 := by decide
theorem test_frameClose_accepts :
    (afterAll (.frameOpen 413 :: aLine 0 ++ aLine 1 ++ [.frameClose 2]) member72).input.state = .idle := by decide
theorem test_frameClose_early :
    (afterAll (.frameOpen 413 :: aLine 0 ++ [.frameClose 1]) member72).table.slot 3 = State.freeSlot := by decide
theorem test_damagedControlWord_stray : (after (.damagedControlWord 0) member72).input.stray = 1 := by decide +kernel
theorem test_damagedControlWord_defect :
    (afterAll [.frameOpen 413, .damagedControlWord 0] member72).table.defective = 1 := by decide +kernel

/-! ## Requests -/

theorem test_frameOpenArrival : (after .frameOpenArrival (reported [.arrival] silentInput)).member.inputSilence = 0 := by decide
theorem test_leave_member : (after .leave (reported [.leave] aMember)).member.withdrawal = some .leave := by decide
theorem test_leave_parks : (after .leave (reported [.leave] (resting 2))).member.state = .parked := by decide
theorem test_rejoin_parked : (after .rejoin (reported [.rejoin] (station .parked .tracking))).member.rejoin = true := by decide
theorem test_rejoin_ignored :
    (after .rejoin (reported [.rejoin] aMember)).report.queue = [⟨.event 0 (.rejoinIgnored .member), 0⟩] := by decide

/-! ## Frame memory -/

/-- A MEMBER whose bus carries a refresh. -/
def busy : State :=
  { aMember with
    port := ⟨.absent, [], [], some .refresh⟩
    transit := { State.resetTransit with refreshes := 2 } }

theorem test_refreshClaim_merges :
    (afterAll [.refreshClaim, .refreshClaim] busy).port.refresh = .present true := by decide
theorem test_refreshClaim_granted :
    (after .refreshClaim { busy with port := State.resetPort }).port.inFlight = some .refresh := by decide
theorem test_writerClaim : (after (.writerClaim 3 0) (carrying [.writerLine 3 0] busy)).port.writers = [⟨3, 0, 0⟩] := by decide
theorem test_readerClaim :
    (after (.readerClaim (.claims 0 1)) (asking [.item (.claims 0 1)] busy)).port.readers = [⟨0, 1, 0⟩] := by decide
theorem test_readerClaim_frameStart :
    (afterAll [.readerClaim (.claims 0 1), .readerClaim .frameStart]
      (asking [.item (.claims 0 1), .item .frameStart] busy)).port.readers = [] := by decide

/-- The slot size of the small image is 128 bytes, so burst 0 of line 1 of slot 3 lies at 448 (R147). -/
theorem test_burstAddress : small.burstAddress 3 1 0 = 448 := by decide

/-- A writer burst in flight. -/
def writing (drop : Bool) : State :=
  { afterAll [.frameOpen 413] member72 with
    port := ⟨.absent, [], [], some (.writer 3 0 0 (List.replicate 64 9) drop)⟩ }

theorem test_burstCompletion_written :
    ((after .burstCompletion (writing false)).table.slot 3).linesWritten = 1 ∧
    ramRead (after .burstCompletion (writing false)).ram 384 = 9 := by decide
theorem test_burstCompletion_dropped :
    ((after .burstCompletion (writing true)).table.slot 3).linesWritten = 0 := by decide
/-- A report sent before the discard is taken counts by the match of slot and line (R121). -/
theorem test_burstCompletion_beforeDiscard :
    ((after .burstCompletion (carrying [.discard 3] (writing false))).table.slot 3).linesWritten = 1 := by decide
theorem test_burstCompletion_outside :
    exec .burstCompletion { aMember with port := ⟨.absent, [], [], some (.reader 131072 0 0)⟩ } =
      .fault .addressOutsideMemory := rfl
theorem test_memoryDiscard :
    (after (.memoryDiscard 3) (carrying [.discard 3] (writing false))).port.inFlight =
      some (.writer 3 0 0 (List.replicate 64 9) true) := by decide
theorem test_readerWithdrawal :
    (afterAll [.readerClaim (.claims 0 1), .readerWithdrawal 1]
      (asking [.item (.claims 0 1), .withdraw 1] busy)).port.readers = [] := by decide

/-! ## Reports, steps and the queue -/

/-- A part with one record to send. -/
def reporting : State := (aMember.postEvent .founded)

/-- An EVENT record is twelve bytes by Table 13-5: E, 6, AFN, four of detail, the lost count and the check field. -/
theorem test_event_bytes :
    (QueuedRecord.bytes ⟨.event 0x0102 .founded, 3⟩).take 10 = [0x45, 6, 1, 2, 0, 0, 0, 0, 0, 3] := by decide
theorem test_recordSent : (after .recordSent reporting).report.queue = [] := by decide
theorem test_step_idle : ((fun o => match o with
    | Host.Outcome.next t => t.tb.phase
    | _ => .ended) (step { aMember with pending := [] })) = .sampled := rfl
/-- The word of FRAME_OPEN 412, written out from Table 13-2, in 24 bits and in 16. -/
theorem test_withFetchWord :
    (aMember.withFetchWord 24 0x1019C5).pending = [.frameOpen 412] ∧ aMember.withFetchWord 16 0x1019C5 = aMember := by
  decide +kernel

/-! ## States that meet the hypotheses of the statements, clause by clause -/

/-- The counters at the end of a pixel. -/
def atEnd (ln px : Nat) : State :=
  { aMember with tb := { State.resetTimebase with state := .tracking, ln := ln, px := px, phase := .ended } }

theorem test_met_pixelClock :
    ((atEnd 32 99).running = true ∧ (atEnd 32 99).pending = [] ∧ (atEnd 32 99).tb.px < small.ll) ∧
    ((atEnd 31 100).tb.px = small.ll ∧ (atEnd 31 100).tb.ln < small.fl) ∧
    ((atEnd 32 100).tb.px = small.ll ∧ (atEnd 32 100).tb.ln = small.fl) := by decide

theorem test_met_queueKept : exec .markRisingEdge aMember = .next (after .markRisingEdge aMember) := rfl

theorem test_met_held : State.reset.running = false ∧ (∀ kind, Instr.frameStart ≠ .reset kind) ∧
    (∀ straps, Instr.frameStart ≠ .resetRelease straps) ∧ (∀ bytes, Instr.frameStart ≠ .imageReadDone bytes) ∧
    Instr.frameStart ≠ .recordSent := by
  refine ⟨by decide, ?_, ?_, ?_, ?_⟩ <;> simp

theorem test_met_release : State.reset.loader.phase = .held := by decide

theorem test_met_failedAttempt :
    ((reading 2 [7]).loader.phase = .reading ∧ (reading 2 [7]).loader.clockAbsent = false ∧
      (List.replicate 64 (0xFF : Byte)).length = 64 ∧
      (reading 2 [7]).loader.attempts < 3) ∧
    ((reading 3 [1, 2]).loader.attempts = 3 ∧ (reading 3 [1, 2]).loader.faults = [1, 2] ∧
      (reading 3 [1, 2]).report.queue = [] ∧ (reading 3 [1, 2]).report.lost = 0) ∧
    faultCode (reading 2 [7]).loader.index (List.replicate 64 0xFF) = some 1 := by decide +kernel

theorem test_met_accepted :
    (reading 3 [1, 2]).loader.phase = .reading ∧ (reading 3 [1, 2]).loader.clockAbsent = false ∧ image.length = 64 ∧
    faultCode (reading 3 [1, 2]).loader.index image = none ∧
    (reading 3 [1, 2]).tb.afn = 0 ∧ (reading 3 [1, 2]).report.queue = [] ∧ (reading 3 [1, 2]).loader.faults.length ≤ 2 ∧
    (reading 3 [1, 2]).table = State.resetTable :=
  ⟨rfl, rfl, rfl, test_image_accepted, rfl, rfl, by decide, rfl⟩

/-- A MEMBER; one that takes a pending role; one with an edge before the wrap; one whose frame counts, on time or not. -/
theorem test_met_frameStart :
    aMember.running = true ∧ aMember.tb.wrapMet = false ∧ aMember.member.state = .member ∧
    aMember.roster.entries.length = 16 ∧
    (after (.markEdge (.pixel 1 1)) (station .listen .seeking)).mark.pendingRole = some (.jump 0) ∧
    (after (.markEdge .wrap) aMember).mark.edgeBeforeWrap = true ∧
    ((thirdMiss .member).mark.began = .tracking ∧ (thirdMiss .member).tb.state = .tracking ∧
      (thirdMiss .member).mark.onTime = false) ∧
    (aMember.mark.began ≠ .tracking ∧ aMember.mark.pendingRole = none ∧ aMember.mark.edgeBeforeWrap = false) ∧
    ((station .listen .seeking).mark.began = .seeking ∧ (station .listen .seeking).tb.state = .seeking ∧
      (after .frameStart (station .listen .seeking)).mark.silenceCount = 1 ∧
      (after .frameStart (station .listen .seeking)).tb.state = .seeking) := by decide

/-- The image with a byte changed fails check 1, and the image itself passes all ten. -/
theorem test_met_checks :
    image.length = 64 ∧ (imageChecks 1 (List.replicate 64 0xFF))[0]? = some false ∧
    ∀ j < 10, (imageChecks 1 image)[j]? = some true := by
  refine ⟨by decide +kernel, by decide +kernel, ?_⟩
  rw [test_image_checks]; decide

theorem test_met_missAndSilence :
    ((thirdMiss .member).running = true ∧ (thirdMiss .member).tb.wrapMet = false ∧
      (thirdMiss .member).tb.state = .tracking ∧ (thirdMiss .member).mark.began = .tracking ∧
      (thirdMiss .member).mark.onTime = false ∧ (thirdMiss .member).mark.missRun = 3 ∧
      (thirdMiss .member).report.queue.length < 4 ∧ (thirdMiss .member).member.state = .member ∧
      (thirdMiss .member).member.withdrawal = none) ∧
    ((thirdMiss .joining).tb.state = .tracking ∧ (thirdMiss .joining).mark.missRun = 3 ∧
      (thirdMiss .joining).member.state = .joining) ∧
    ((thirdMiss .parked).member.state = .parked ∧ (thirdMiss .parked).member.rejoin = false ∧
      (after .markLost (thirdMiss .parked)).report.queue = [⟨.event 1 (.markLost .parked), 0⟩]) ∧
    ((resting 2).member.state = .resting ∧ 2 ≤ (resting 2).member.rest) ∧
    ((after .leave (reported [.leave] (thirdMiss .member))).member.withdrawal = some .leave ∧
      (after .leave (reported [.leave] (thirdMiss .member))).mark.missRun = 3 ∧
      (afterAll [.leave, .markLost] (reported [.leave] (thirdMiss .member))).member.withdrawal = some .leave) ∧
    (silentInput.member.state = .member ∧ silentInput.member.withdrawal = none ∧ silentInput.mark.missRun < 3 ∧
      silentInput.settings.inputTimeout ≠ 0 ∧
      silentInput.settings.inputTimeout < min (silentInput.member.inputSilence + 1) 255) := by decide

theorem test_met_silenceAndRest :
    (silentOnce.running = true ∧ silentOnce.tb.wrapMet = false ∧ silentOnce.member.state = .listen ∧
      silentOnce.tb.state = .seeking ∧ silentOnce.mark.began = .seeking ∧ silentOnce.mark.silenceCount = 1 ∧
      silentOnce.report.queue.length < 4) ∧
    ((silentParked false).member.state = .parked ∧ (silentParked false).member.rejoin = false ∧
      (silentParked false).mark.silenceCount = 1 ∧ (after .seekSilence (silentParked false)).member.state = .parked ∧
      (after .seekSilence (silentParked false)).tb.state = .tracking) ∧
    ((resting 1).running = true ∧ (resting 1).member.state = .resting ∧ (resting 1).member.rest = 1) ∧
    ((silentParked true).running = true ∧ (silentParked true).member.state = .parked ∧
      (silentParked true).member.rejoin = true ∧ (after .frameStart (silentParked true)).member.state = .listen) ∧
    ((resting 2).member.state = .resting ∧ (resting 2).tb.state = .tracking ∧ 2 ≤ (resting 2).member.rest) := by decide

theorem test_met_lineStart :
    aMember.running = true ∧ 1 ≤ aMember.settings.ll ∧ 2 ≤ aMember.settings.fl ∧ 32 ≤ aMember.settings.fl ∧
    1 ≤ aMember.settings.cz ∧ aMember.settings.cz ≤ aMember.settings.fl := by decide

/-- A MEMBER drives MARK in line 1 alone, and a RESTING station in no line (R22). -/
theorem test_met_markDrive :
    aMember.pins.mark = .low ∧ (after (.lineStart 2) aMember).pins.mark = .high ∧ (resting 2).pins.mark = .high := by decide

/-- The filter before its first sample, with two samples and with three, the level high and low. -/
theorem test_met_filter :
    (aMember.pending = [] ∧ aMember.tb.phase = .begun ∧ aMember.mark.samples.length ≤ 1) ∧
    (aMember.mark.sample .low).1.samples = [.low] ∧
    (({ State.resetMark with samples := [.low, .low] } : MarkAligner).sample .low).1.level = .low ∧
    (({ State.resetMark with samples := [.high, .low, .low] } : MarkAligner).sample .low).2 = .falling ∧
    (({ State.resetMark with samples := [.low, .high, .high], level := .low } : MarkAligner).sample .high).2 = .rising ∧
    (({ State.resetMark with samples := [.high, .low, .high] } : MarkAligner).sample .low).2 = .quiet := by decide

/-- The edge at (32, 100), the last pixel, and at (1, 2), the first that is no frame start. -/
theorem test_met_seekingEdge :
    (station .listen .seeking).running = true ∧ (station .listen .seeking).tb.state = .seeking ∧
    (station .listen .seeking).member.state = .listen ∧ 32 ≤ small.fl ∧ 100 ≤ small.ll ∧ ¬(32 = 1 ∧ 100 = 1) ∧
    ¬(1 = 1 ∧ 2 = 1) ∧ (station .listen .seeking).report.queue.length < 4 ∧
    ((station .parked .seeking).member.state = .parked ∧ (station .parked .seeking).member.rejoin = false ∧
      (station .parked .seeking).tb.state = .seeking) ∧
    ((after .rejoin (reported [.rejoin] (station .parked .seeking))).member.rejoin = true ∧
      (afterAll [.rejoin, .markEdge (.pixel 32 100)] (reported [.rejoin] (station .parked .seeking))).member.state =
        .listen ∧
      (afterAll [.rejoin, .markEdge .wrap] (reported [.rejoin] (station .parked .seeking))).tb.state = .seeking ∧
      (afterAll [.rejoin, .markEdge (.pixel 1 1)] (reported [.rejoin] (station .parked .seeking))).member.rejoin = true) := by
  decide

/-- A MEMBER; a lone station in the frame in which tracking began by silence, at (1, 3) and at (1, 1), and a full queue. -/
theorem test_met_onTimeEdge :
    (aMember.running = true ∧ aMember.tb.state = .tracking ∧ aMember.mark.silenceHere = false ∧ 1 ≤ small.fl ∧
      4 ≤ small.cl ∧ small.cl ≤ small.ll) ∧
    ((after .seekSilence silentOnce).running = true ∧ (after .seekSilence silentOnce).tb.state = .tracking ∧
      (after .seekSilence silentOnce).mark.silenceHere = true ∧ (after .seekSilence silentOnce).mark.silenceTold = true ∧
      (after .seekSilence silentOnce).report.queue = [] ++ ⟨.event 1 .trackingSilence, 0⟩ :: [] ∧
      (afterAll [.seekSilence, .markEdge (.pixel 1 3)] silentOnce).mark.frameRole = .lead) ∧
    (after .seekSilence (full silentOnce)).mark.silenceTold = false := by decide

/-- A PARKED station in its catch zone, at (32, 100). -/
theorem test_met_catchEdge :
    (after .catchZoneEntry (station .parked .tracking)).running = true ∧
    (after .catchZoneEntry (station .parked .tracking)).tb.state = .tracking ∧
    (after .catchZoneEntry (station .parked .tracking)).mark.catchArmed = true ∧ 32 ≤ small.fl ∧ 100 ≤ small.ll ∧ small.cz ≤ 23 ∧
    (after .catchZoneEntry (station .parked .tracking)).member.rejoin = false ∧
    (after .catchZoneEntry (station .parked .tracking)).member.state ≠ .resting ∧
    (afterAll [.rejoin, .catchZoneEntry] (reported [.rejoin] (station .parked .tracking))).member.rejoin = true ∧
    ((after .catchZoneEntry (resting 1)).member.state = .resting ∧
      (after .catchZoneEntry (resting 1)).member.rest = 1) := by decide

/-- The edge at (1, 5), the first after the first cell, for each kind of station. -/
theorem test_met_strayEdge :
    (aMember.running = true ∧ aMember.mark.catchArmed = false ∧ ¬(1 = 1 ∧ 5 ≤ small.cl) ∧ 5 ≤ small.ll ∧
      1 < small.cz ∧
      aMember.member.state = .member) ∧
    ((station .joining .tracking).member.state = .joining ∧ (station .joining .tracking).mark.missRun < 3) ∧
    ((station .parked .tracking).member.state = .parked ∧ (station .parked .tracking).member.rejoin = false) ∧
    ((resting 2).member.state = .resting ∧ 2 ≤ (resting 2).member.rest) ∧
    ((resting 1).member.state = .resting ∧ (resting 1).member.rest ≤ 1 ∧ (resting 1).mark.catchArmed = false) ∧
    (after .rejoin (reported [.rejoin] (station .parked .tracking))).member.rejoin = true ∧
    ((thirdMiss .joining).mark.catchArmed = false ∧ (thirdMiss .joining).mark.began = .tracking ∧
      (thirdMiss .joining).mark.onTime = false ∧ 3 ≤ (thirdMiss .joining).mark.missRun) := by decide

/-- A stray edge at the fourth miss brings a JOINING station to LISTEN, with the report of its state at the last pixel clock
before the edge's: a LEAVE taken first at the edge's own pixel clock is after it (R31, R34, R101). -/
theorem test_markEdge_fourthMiss :
    (after (.markEdge (.pixel 10 7)) (thirdMiss .joining)).member.state = .listen ∧
    (after (.markEdge (.pixel 10 7)) (thirdMiss .joining)).report.queue.map QueuedRecord.body =
      [.event 1 (.markLost .joining)] ∧
    (afterAll [.leave, .markEdge (.pixel 10 7)] (leavingAtTheWrap .joining .ended)).report.queue.map QueuedRecord.body =
      [.event 0 (.parked .joining), .event 1 (.markLost .joining)] := by decide

/-- A JOINING station in talk slot 0, with activity there, and in image line 0: a stray edge cuts both (R7, R53, R161). -/
theorem test_met_cutEnds :
    (({ inSlot 0 .waiting [] with
      tb := { (inSlot 0 .waiting []).tb with openLine := some 0 }
      link := { State.resetLink with activity := true }
      member := { State.resetMember with state := .joining } } : State) |>
        fun s => (after (.markEdge (.pixel 10 7)) s)) |>
      fun t => (t.roster.entry 0).previous = .damaged ∧ t.transit.readerItems.head? = some (.withdraw 0) ∧
        t.tb.openSlot = none ∧ t.tb.openLine = none := by decide

/-- Slot 1 is the own slot; a MEMBER may send, a RESTING station may not, and slot 0 is another's. -/
theorem test_met_slotBegin :
    (aMember.running = true ∧ 1 < small.n ∧ small.tw + 1 * small.sl ≤ small.fl ∧ aMember.own = 1 ∧
      aMember.tb.state = .tracking ∧ aMember.member.state = .member) ∧
    ((resting 2).own = 1 ∧ (resting 2).member.state = .resting) ∧ aMember.own ≠ 0 := by decide

/-- Each receive phase, in the last cell of the slot. -/
theorem test_met_receiver :
    (inSlot 0 .waiting []).running = true ∧ (inSlot 0 .waiting []).tb.openSlot = some 0 ∧ 199 < small.slotCapacity ∧
    (inSlot 0 .between [1]).link.rx = .between ∧ (inSlot 0 .complete [1]).link.rx = .complete ∧
    (inSlot 0 .broken [1]).link.rx = .broken ∧
    (inSlot 0 (.inCharacter 8 [] .low) []).link.rx = .inCharacter 8 [] .low ∧
    (inSlot 0 (.inCharacter 9 [] .low) []).link.rx = .inCharacter 9 [] .low ∧
    (inSlot 0 (.inCharacter 10 [] .high) []).link.rx = .inCharacter 10 [] .high ∧
    Level.high = (if (inSlot 0 (.inCharacter 10 [] .high) []).link.received = [] then Level.high else Level.low) ∧
    Level.low ≠ (if (inSlot 0 (.inCharacter 10 [] .low) []).link.received = [] then Level.high else Level.low) ∧
    (byteOfBits [true, true, false, false, false, false, false, false]).toNat = 3 ∧
    (byteOfBits [false, false, true, false, false, false, false, false]).toNat = 4 := by decide

theorem test_met_announceSent :
    { aMember with link := { State.resetLink with tx := .sending } }.running = true := by decide

/-- Station 1 sends from line 12: the start cell of its first character, cell 2, is low, and the two cells before it are high;
the lead cell of its second character, cell 22, is low, and that of the first, cell 11, is high (R41, R42). -/
theorem test_met_talkDrive :
    ((fun px => ({ after (.slotBegin 1) aMember with
        tb := { (after (.slotBegin 1) aMember).tb with px := px } } : State).pins.talk) |>
      fun talk => (talk 1, talk 8, talk 9, talk 12, talk 45, talk 89)) =
    (.high, .high, .low, .low, .high, .low) := by decide +kernel

theorem test_met_slotEnd :
    ((inSlot 0 .complete fromZero.bytes).tb.openSlot = some 0 ∧ (inSlot 0 .complete fromZero.bytes).running = true ∧
      (inSlot 0 .complete fromZero.bytes).roster.entries.length = 16 ∧
      (inSlot 0 .complete fromZero.bytes).tb.state = .tracking) ∧
    ((inSlot 15 .broken []).tb.openSlot = some 15 ∧ (inSlot 15 .broken []).link.rx ≠ .complete) ∧
    ((inSlot 1 .complete fromZero.bytes).own = 1 ∧ (inSlot 1 .complete fromZero.bytes).link.tx = .idle) ∧
    (seventhMiss.tb.openSlot = some 0 ∧ (seventhMiss.roster.entry 0).missRun = 7 ∧ seventhMiss.link.rx ≠ .complete ∧
      seventhMiss.roster.entries.length = 16) ∧
    { inSlot 0 .waiting [] with tb := { (inSlot 0 .waiting []).tb with state := .seeking } }.tb.state = .seeking := by
  decide +kernel

theorem test_met_ownAnnouncement :
    fromZero.heard.ready.length ≤ 3 ∧ strictlyIncreasing fromZero.heard.ready = true ∧
    11 * fromZero.bytes.length + 1 < small.slotCapacity := by decide

theorem test_met_voteLines :
    aMember.running = true ∧ 1 ≤ small.vl ∧ small.vl + 1 ≤ small.fl ∧ 1 ≤ small.cl ∧ 16 * small.cl ≤ small.ll ∧
    small.cl / 2 + 2 ≤ small.ll ∧ (station .listen .seeking).tb.state = .seeking ∧ aMember.tb.state = .tracking := by decide

/-- VOTE is low in the own roll-call cell, pixels 5 to 8 of line 20, until a LEAVE ends the permission, and in the verdict cell,
pixels 1 to 4 of line 21, on a latched VETO (R55, R57). -/
theorem test_met_voteDrive :
    ((fun px => ({ after .rollCallCell aMember with
        tb := { (after .rollCallCell aMember).tb with px := px } } : State).pins.vote) |>
      fun vote => (vote 4, vote 5, vote 8, vote 9)) = (.high, .low, .low, .high) ∧
    (afterAll [.rollCallCell, .leave] (reported [.leave] aMember)).pins.vote = .high ∧
    (afterAll [.rollCallCell, .verdictLatch] { aMember with
      consent := { State.resetConsent with order := .veto } }).pins.vote = .low ∧
    (after .verdictLatch { aMember with consent := { State.resetConsent with order := .veto } }).pins.vote = .high := by
  decide

/-- A roll call of a MEMBER without and with a pending withdrawal, of a JOINING station, and in a SEEKING frame. -/
theorem test_met_rollCall :
    bothClaim.length = 16 ∧ inStep.running = true ∧ inStep.tb.state = .tracking ∧ inStep.roster.entries.length = 16 ∧
    inStep.member.state = .member ∧ inStep.member.withdrawal = none ∧ inStep.link.latchTaken = false ∧
    (after .leave (reported [.leave] inStep)).member.withdrawal = some .leave ∧
      (station .joining .tracking).member.state = .joining ∧
    (station .listen .seeking).tb.state = .seeking := by decide

/-- After the roll call the own entry is claimed; the common list and the base give 411; both stations are in R. -/
theorem test_met_vote :
    ((after (.rollCallClose bothClaim) inStep).roster.entry 1).claimed = .yes ∧
    (after (.rollCallClose bothClaim) inStep).roster.r = [0, 1] ∧
    ((after (.rollCallClose bothClaim) inStep).roster.readyOf 0).Pairwise (fun a b => newer b a = true) ∧
    targetOf (some (some 410)) (after (.rollCallClose bothClaim) inStep).roster.commonList = some 411 ∧
    targetOf (some (some 411)) (after (.rollCallClose bothClaim) inStep).roster.commonList = none := by decide

/-- The four hold reasons of R83, each from a state that fails its condition and holds those before it. -/
theorem test_met_holdReasons :
    (State.resetConsent.decideVote .member none 1 (after (.rollCallClose bothClaim) inStep).roster false table72).hold =
      .reception ∧
    (State.resetConsent.decideVote .member none 1 (after (.rollCallClose bothClaim) inStep).roster true
      State.resetTable).hold = .step ∧
    (State.resetConsent.decideVote .member none 1
      { (after (.rollCallClose bothClaim) inStep).roster with r := [1] } true
      { table72 with readyQueue := [] }).hold = .notReady ∧
    (State.resetConsent.decideVote .member none 1
      { (after (.rollCallClose bothClaim) inStep).roster with r := [] } true table72).hold = .noTarget ∧
    (State.resetConsent.decideVote .member none 1 (after (.rollCallClose bothClaim) inStep).roster true table72).hold =
      .none := by decide

/-- The table of Table 7-2 without a SHOWN slot. -/
def joinerTable : SlotTable :=
  { State.resetTable with
    slots := [State.freeSlot, ⟨.ready, some 411, 0, false⟩, ⟨.ready, some 412, 0, false⟩, State.freeSlot]
    readyQueue := [1, 2] }

/-- A JOINING station with the records of both in common, with none heard, and with records that differ (R79). -/
theorem test_met_base :
    (State.resetConsent.decideVote .joining none 1 (after (.rollCallClose bothClaim) inStep).roster true
      joinerTable).target = some 411 ∧
    (State.resetConsent.decideVote .joining none 1 (after (.rollCallClose bothClaim) inStep).roster false
      joinerTable).target = none ∧
    (State.resetConsent.decideVote .joining none 1
      { (after (.rollCallClose bothClaim) inStep).roster with r := [0, 2] } true joinerTable).target = none ∧
    (State.resetConsent.decideVote .parked none 1 (after (.rollCallClose bothClaim) inStep).roster true
      table72).target = none ∧
    (State.resetConsent.decideVote .member (some .leave) 1 (after (.rollCallClose bothClaim) inStep).roster true
      table72).role = .abstaining ∧
    (after (.rollCallClose bothClaim) inStep).member.withdrawal = inStep.member.withdrawal := by decide

/-- Two members of one array, each with the other's record and its own. -/
def twoMembers : Roster := (after (.rollCallClose bothClaim) inStep).roster

theorem test_met_stayingMembers :
    twoMembers.r.Nodup ∧ 0 ∈ twoMembers.r ∧ 1 ∈ twoMembers.r ∧
    twoMembers.r.length < 2 * twoMembers.stepAgreement 0 (some 410) ∧
    twoMembers.r.length < 2 * twoMembers.stepAgreement 1 (some 410) ∧
    twoMembers.entries.all (fun e => match e.record with
      | some rec => decide (rec.receiveAfn = 7 ∧ rec.heard.shown = some 410 ∧ rec.heard.afn = 7)
      | none => true) = true := by decide

theorem test_table72_consistent : table72.Consistent := by
  refine ⟨by decide, by decide, by decide, ?_, by decide, by decide, by decide, by decide, by decide, by decide⟩
  intro i h; cases h; decide

theorem test_table72_ordered : table72.Ordered := by
  refine ⟨by decide +kernel, ?_⟩
  intro c h r hr
  have hs : table72.shownContent = some 410 := by decide +kernel
  have hl : table72.readyList.all (newer · 410) = true := by decide +kernel
  obtain rfl : 410 = c := Option.some.inj (hs.symm.trans h)
  exact List.all_eq_true.mp hl r hr

/-- A MEMBER with a pending withdrawal, with and without the park flag. -/
def withdrawing (cause : WithdrawalCause) (park : Bool) : State :=
  { member72 with member := { State.resetMember with state := .member, withdrawal := some cause, park := park } }

theorem test_met_withdrawal :
    (withdrawing .leave false).running = true ∧ (withdrawing .leave false).member.withdrawal = some .leave ∧
    (withdrawing .unheard true).member.park = true ∧ (withdrawing .unheard false).member.park = false ∧
    (withdrawing .unheard false).member.state = .member ∧ (withdrawing .leave false).report.queue.length < 4 ∧
    (after .swapLine (withdrawing .unheard false)).link.claimOwed = true := by decide

/-- A JOINING station at the swap line, with its results, its target and its empty roll calls. -/
def joining (settled : Bool) (target : Option Content) (emptyRun : Nat) (r : List Nat) : State :=
  { station .joining .tracking with
    table := joinerTable
    roster := { State.resetRoster with r := r, results := some ⟨true, settled, false, 0, none⟩ }
    consent := { State.resetConsent with target := target, targetReady := target.isSome }
    member := { State.resetMember with state := .joining, emptyRun := emptyRun, verdictLevel := some .high } }

theorem test_joinerTable_legal : joinerTable.Consistent ∧ joinerTable.Ordered := by
  refine ⟨⟨by decide, by decide, by decide, ?_, by decide, by decide, by decide, by decide, by decide, by decide⟩,
    by decide, ?_⟩ <;> intro _ h <;> cases h

theorem test_met_joiner :
    ((joining true (some 411) 0 [0]).running = true ∧ (joining true (some 411) 0 [0]).member.state = .joining ∧
      (joining true (some 411) 0 [0]).table.shown = none ∧ (joining true (some 411) 0 [0]).report.queue.length < 4 ∧
      (joining true (some 411) 0 [0]).consent.targetReady = true ∧
      (joining true (some 411) 0 [0]).table.contentOf 1 = some 411) ∧
    ((joining false none 2 []).member.emptyRun = 2 ∧ (joining false none 2 []).roster.r = []) ∧
    (after .swapLine (joining true (some 411) 0 [0])).member.state = .member ∧
    (after .swapLine (joining false none 2 [])).member.state = .member ∧
    (after .swapLine (joining false (some 411) 0 [0])).table.readyQueue = [2] ∧
    after .swapLine (joining false none 0 [0]) ≠ joining false none 0 [0] := by decide

/-- A frame without results ends the row of empty roll calls of a JOINING station, and one with results does not (R101). -/
theorem test_frameStart_emptyRun :
    (after .frameStart { joining false none 1 [] with roster := State.resetRoster }).member.emptyRun = 0 ∧
    (after .frameStart (joining false none 1 [])).member.emptyRun = 1 := by decide

/-- A join that shows 412 frees and skips 411, and one that shows 411 keeps 412 READY (R124). -/
theorem test_swapLine_joins :
    ((after .swapLine (joining true (some 412) 0 [0])).table.readyQueue = [] ∧
      (after .swapLine (joining true (some 412) 0 [0])).table.slot 1 = State.freeSlot ∧
      (after .swapLine (joining true (some 412) 0 [0])).table.skipped = 1) ∧
    ((after .swapLine (joining true (some 411) 0 [0])).table.readyQueue = [2] ∧
      (after .swapLine (joining true (some 411) 0 [0])).table.skipped = 0) := by decide

theorem test_met_frameRecord :
    member72.running = true ∧ member72.settings.reportMode = .everyFrame ∧ member72.report.queue.length ≤ 2 ∧
    member72.member.state = .member ∧ (station .parked .tracking).member.state = .parked ∧
    (resting 2).member.state = .resting ∧ (after .swapLine (resting 2)).report = (resting 2).report ∧
    (station .listen .seeking).member.state = .listen ∧
    (after .swapLine (station .parked .tracking)).report.queue.length = 1 := by decide

/-- The station in on-change mode, with a last queued FRAME. -/
def onChange (last : Option FrameKey) (s : State) : State :=
  { s with settings := { s.settings with reportMode := .onChange }, report := { s.report with lastFrame := last } }

/-- In on-change mode a frame that repeats like the last is not reported, and one that differs is (R179); the outcomes are those
of R92 and R107. -/
theorem test_met_frameOutcome :
    (after .swapLine (onChange (some ⟨.repeated, .member, 0, .notVoting⟩) member72)).report.queue = [] ∧
    (after .swapLine (onChange (some ⟨.swapped, .member, 0, .notVoting⟩) member72)).report.queue.length = 1 ∧
    (after .swapLine swapping).report.lastFrame.map FrameKey.outcome = some .swapped ∧
    (after .swapLine (withdrawing .unheard false)).report.lastFrame.map FrameKey.outcome = some .withdrew ∧
    (after .swapLine (joining true (some 411) 0 [0])).report.lastFrame.map FrameKey.outcome = some .joined ∧
    (after .swapLine (joining false none 2 [])).report.lastFrame.map FrameKey.outcome = some .founded ∧
    (after .swapLine (joining false (some 411) 0 [0])).report.lastFrame.map FrameKey.outcome = some .none := by decide

theorem test_small_fits : small.Fits := by decide

/-- An image whose window has three lines. -/
def tall : Settings := { small with fl := 64, va1 := 12, wh := 3, tw := 13, vl := 29, sw := 31, cz := 32 }

theorem test_met_panel :
    ((showing 0 0 []).running = true ∧ (showing 0 0 []).out.places.length = 3 ∧ 0 < small.wh ∧ 3 < small.ww ∧
      (showing 0 0 []).tb.openLine = some 0 ∧ (showing 0 0 []).out.latched ≠ none ∧ 0 ≤ (3 * 3 + 2) / 64) ∧
    (tall.Fits ∧ 0 + 2 < tall.wh ∧ (showing 0 0 []).out.nextLine = 0 + 2) ∧
    ((showing 0 1 aBurst).out.place 0 = .holds 0 1 .active aBurst ∧ (3 * 3 + 2) / 64 < 1) ∧
    (delivering [⟨0, 0, 0, aBurst⟩] (showing 0 0 [])).transit.reads = ⟨0, 0, 0, aBurst⟩ :: [] := by decide

/-- A line that has ended still shows its last window pixel (R163). -/
theorem test_met_ended :
    (after (.imageLineEnd 0) (showing 0 1 aBurst)).out.place 0 = .holds 0 1 .ended aBurst ∧
    (after (.imageLineEnd 0) (showing 0 1 aBurst)).pins.pdat = 0x101010#24 := by decide

/-- A HALTED part, and one in CONFIG, is held (R156). -/
theorem test_met_heldPins :
    (after (.imageReadDone (List.replicate 64 0xFF)) (reading 3 [1, 2])).running = false ∧
    (after (.imageReadDone (List.replicate 64 0xFF)) (reading 3 [1, 2])).member.state = .halted ∧
    (reading 1 []).running = false := by decide +kernel

/-- The positions of R163's rows: outside, border, window. -/
theorem test_met_pixel :
    ¬(small.va0 ≤ 1 ∧ 1 ≤ small.va1) ∧
    { aMember with tb := { State.resetTimebase with ln := 2, px := 2 } }.pins.pdat = small.border ∧
    { aMember with tb := { State.resetTimebase with ln := 3, px := 6 } }.pins.pdat = small.fill ∧
    { aMember with tb := { State.resetTimebase with ln := 1, px := 5 } }.pins.pdat = 0 := by decide

theorem test_member72_inputLegal : member72.InputLegal := by
  refine ⟨by decide, fun _ => ⟨by decide, ?_⟩, by decide⟩
  intro i h
  have hn : member72.table.fillingSlot = none := by decide
  rw [hn] at h; cases h

/-- A frame under reception in slot 3, with its flags window open; room and the order of contents hold or fail. -/
theorem test_met_frameOpen :
    member72.running = true ∧ (after (.frameOpen 413) member72).input.state = .filling ∧
    (after (.frameOpen 413) member72).table.fillingSlot = some 3 ∧
    (after (.frameOpen 413) member72).input.window = true ∧
    ((∃ i < 4, (member72.table.slot i).state = .free) ∧ member72.table.readyQueue.length ≤ 2) ∧
    member72.table.readyList.all (newer 413 ·) = true ∧ newer 412 412 = false := by decide +kernel

/-- A frame in slot 3 whose lines have all been written, with this content (R122). -/
def written (content : Content) : State :=
  { member72 with
    input := { State.resetInput with state := .filling, slot := 3, expectedLine := 2 }
    table := { table72 with slots := table72.slots.set 3 ⟨.filling, some content, 2, false⟩ } }

theorem test_met_lineGrammar :
    ((after (.frameOpen 413) member72).input.pixelCount = none ∧
      (after (.frameOpen 413) member72).input.expectedLine = 0 ∧ (0#16).toNat < small.wh ∧
      (after (.frameOpen 413) member72).input.emptyBufferNumber = some 0) ∧
    ((afterAll [.frameOpen 413, .lineOpen 0] member72).input.pixelCount = some 0 ∧ 0 + 1 ≠ small.ww) ∧
    ((afterAll [.frameOpen 413, .lineOpen 0, .pixelWord 1, .pixelWord 2, .pixelWord 3] member72).input.pixelCount =
      some 3 ∧ 3 + 1 = small.ww) ∧
    ((afterAll (.frameOpen 413 :: aLine 0 ++ aLine 1) member72).input.expectedLine = small.wh ∧
      (afterAll (.frameOpen 413 :: aLine 0 ++ aLine 1) member72).table.contentOf 3 = some 413) ∧
    ((written 413).input.pixelCount = none ∧ (written 413).input.expectedLine = small.wh ∧
      ((written 413).table.slot 3).linesWritten = small.wh ∧ (written 413).table.newerThanHeld 413 = true ∧
      (after (.frameClose 2) (written 413)).table.readyQueue = [1, 2, 3]) ∧
    ((written 411).table.contentOf 3 = some 411 ∧ (written 411).table.newerThanHeld 411 = false ∧
      (after (.frameClose 2) (written 411)).table.skipped = 1) := by decide

theorem test_met_defects :
    (afterAll [.frameOpen 413, .frameFlags 0] member72).input.state = .filling ∧
    (afterAll [.frameOpen 413, .frameFlags 0] member72).input.window = false ∧
    (afterAll [.frameOpen 413, .frameFlags 0] member72).input.pixelCount = none ∧
    (2#16).toNat = small.wh ∧
    (∀ b ∈ (afterAll (.frameOpen 413 :: aLine 0 ++ aLine 1) member72).input.buffers, b.state ≠ .empty) ∧
    (Instr.damagedControlWord 0).wellFormed = true := by decide +kernel

theorem test_met_otherWords :
    member72.input.state = .idle ∧ (after (.frameOpen 412) member72).input.state = .draining ∧
    (after (.frameOpen 412) member72).input.window = true ∧
    (afterAll [.frameOpen 412, .pixelWord 0] member72).input.window = false := by decide

theorem test_met_readBack :
    (Instr.frameOpen 412).wellFormed = true ∧ encodeInputWord (.frameOpen 412) = some (true, 0x1019C5#24) ∧
    step (member72.withInputWord true 0x1019C5#24) = exec (.frameOpen 412) member72 := by
  refine ⟨by decide +kernel, by decide +kernel, ?_⟩
  simp only [State.withInputWord, test_word_frameOpen]
  rfl

theorem test_met_requests :
    aMember.running = true ∧ aMember.member.state = .member ∧ aMember.member.withdrawal = none ∧
    (after (.rollCallClose bothClaim) inStep).consent.role = .voting ∧
    (withdrawing .unheard false).member.withdrawal = some .unheard ∧
    (withdrawing .leave false).member.withdrawal = some .leave ∧ (resting 2).member.state = .resting ∧
    (resting 2).report.queue.length < 4 ∧ (station .parked .tracking).member.state = .parked ∧
    (reported [.leave, .rejoin] aMember).transit.toPclk = .leave :: [.rejoin] ∧ 4 ≤ (full aMember).report.queue.length ∧
    (after .rejoin (reported [.rejoin] (full aMember))).report.lost = 1 := by decide

/-- A line of two bursts WAITING in buffer 0, for slot 3. -/
def waitingLine : State :=
  { aMember with
    settings := wide
    input := { State.resetInput with buffers := [⟨.waiting, 3, 0, 2, List.replicate 32 0x010203⟩, State.emptyBuffer] } }

theorem test_met_claims :
    busy.port.inFlight = some .refresh ∧ waitingLine.running = true ∧ waitingLine.port = ⟨.absent, [], [], none⟩ ∧
    2 ≤ waitingLine.settings.bursts ∧ waitingLine.input.waitingBuffer 3 0 = some 0 ∧
    (after (.writerClaim 3 0) (carrying [.writerLine 3 0] waitingLine)).port.writers = [⟨3, 0, 1⟩] ∧
    small.bursts = 1 ∧
    (after (.writerClaim 3 0) (carrying [.writerLine 3 0] { waitingLine with settings := small })).port.writers = [] ∧
    (after (.writerClaim 3 0) (carrying [.writerLine 3 0] { waitingLine with settings := small })).input.waitingBuffer 3 0 =
      none ∧
    (after (.writerClaim 3 0) (carrying [.writerLine 3 0, .discard 3] waitingLine)).input = waitingLine.input ∧
    after (.readerClaim .frameStart) (asking [.item .frameStart] waitingLine) = waitingLine ∧
    busy.transit.refreshes ≠ 0 := by decide

theorem test_met_arbiter :
    ({ waitingLine with port := ⟨.present true, [⟨0, 0, 0⟩], [⟨3, 0, 0⟩], none⟩ } : State).grant.port.inFlight =
      some .refresh ∧
    ({ waitingLine with
      port := ⟨.present false, [⟨0, 0, 0⟩], [⟨3, 0, 0⟩], none⟩
      out := { State.resetOut with urgent := true } } : State).grant.port.inFlight = some (.reader 0 0 0) ∧
    ({ waitingLine with port := ⟨.present false, [⟨0, 0, 0⟩], [⟨3, 0, 1⟩], none⟩ } : State).grant.port.writers = [] ∧
    ({ waitingLine with port := ⟨.present false, [⟨0, 0, 0⟩], [], none⟩ } : State).grant.port.inFlight =
      some (.reader 0 0 0) ∧
    ({ waitingLine with port := ⟨.present false, [], [], none⟩ } : State).grant.port.inFlight = some .refresh ∧
    waitingLine.grant = waitingLine ∧
    (carrying [.discard 3, .writerLine 3 0] { waitingLine with port := ⟨.absent, [], [⟨3, 0, 0⟩], none⟩ }).grant.input =
      waitingLine.input := by decide

/-- The next on its way, and a command for something else. -/
theorem test_met_arrivals :
    (carrying [.discard 3] aMember).transit.toMemory = .discard 3 :: [] ∧
    (asking [.withdraw 1] aMember).transit.readerItems = .withdraw 1 :: [] ∧
    (reported [.arrival, .leave] aMember).transit.toPclk.head? ≠ some .leave ∧
    after .leave (reported [.arrival, .leave] aMember) = reported [.arrival, .leave] aMember ∧
    after (.memoryDiscard 2) (carrying [.discard 3] aMember) = carrying [.discard 3] aMember := by decide

theorem test_met_completion :
    (writing false).running = true ∧ ramCanonical (writing false).ram = true ∧
    3 * (small.wh * small.pitch) + 0 * small.pitch + 64 * 0 + 64 ≤ small.memoryBytes ∧
    0 + 1 = small.bursts ∧ (writing false).table.fillingSlot = some 3 ∧
    ((writing false).table.slot 3).linesWritten = 0 ∧ ((writing false).table.slot 3).closing = false ∧
    aMember.port.inFlight = none ∧ busy.port.inFlight = some .refresh := by decide

/-- The transmitter at the first pixel of a record (R176). -/
theorem test_met_record :
    reporting.report.clock.1.tx = .sending 0 0 reporting.report.divisor ∧ 1 ≤ reporting.report.divisor ∧
    reporting.report.clock.1.queue = [⟨.event 0 .founded, 0⟩] ∧
    0 < 10 * (QueuedRecord.bytes ⟨.event 0 .founded, 0⟩).length * reporting.report.divisor := by decide

/-- A state that has every invariant, and its next one. -/
theorem test_met_invariants :
    aMember.CountersInRange ∧ aMember.RunsInRange ∧ aMember.MembershipLegal ∧ aMember.MemoryPortLive ∧
    aMember.MemoryCanonical ∧ step aMember = .next aMember.tick := by
  refine ⟨by decide, by decide, by decide, by decide, by decide, rfl⟩

theorem test_met_tableLegal : member72.TableLegal ∧ member72.InputLegal ∧ member72.MembershipLegal :=
  ⟨⟨test_table72_consistent, test_table72_ordered, by decide, by decide⟩, test_member72_inputLegal, by decide⟩

theorem test_met_onlySwapLine :
    member72.running = true ∧ member72.member.state ≠ .config ∧ Instr.frameStart ≠ .swapLine ∧
    (∀ kind, Instr.frameStart ≠ .reset kind) ∧ exec .frameStart member72 = .next (after .frameStart member72) := by
  refine ⟨by decide, by decide, by decide, ?_, rfl⟩
  intro kind; simp

end Sys2Proof.Tests
end

section
/-! Content numbers in serial order (R1): the order in terms of the numbers it compares, and the lists it increases along. -/

namespace Sys2Proof.Machine

open Sys2Proof

theorem newer_iff (a b : Content) : newer a b = true ↔
    1 ≤ (a.toNat + 65536 - b.toNat) % 65536 ∧ (a.toNat + 65536 - b.toNat) % 65536 ≤ 32767 := by
  have hdiff : (a - b).toNat = (a.toNat + 65536 - b.toNat) % 65536 := by bv_omega
  simp only [newer, decide_eq_true_eq, hdiff]

theorem newer_eq_false_iff (a b : Content) : newer a b = false ↔
    (a.toNat + 65536 - b.toNat) % 65536 = 0 ∨ 32768 ≤ (a.toNat + 65536 - b.toNat) % 65536 := by
  rw [← Bool.not_eq_true, newer_iff]
  omega

/-- The two differences of a pair add up to 65536, so at 32768 both lie just outside the newer half. -/
theorem not_newer_of_half_apart (a b : Content) (h : (a.toNat + 65536 - b.toNat) % 65536 = 32768) :
    newer a b = false ∧ newer b a = false := by
  have hswap : (b.toNat + 65536 - a.toNat) % 65536 = 32768 := by omega
  exact ⟨(newer_eq_false_iff a b).2 (by omega), (newer_eq_false_iff b a).2 (by omega)⟩

theorem newer_or_newer (a b : Content) (hne : a ≠ b) (h : (a.toNat + 65536 - b.toNat) % 65536 ≠ 32768) :
    newer a b = true ∨ newer b a = true := by
  have hnat : a.toNat ≠ b.toNat := fun e => hne (BitVec.eq_of_toNat_eq e)
  have ha := a.isLt
  have hb := b.isLt
  rw [newer_iff, newer_iff]
  omega

/-- "Strictly increasing" is Mathlib's chain of the order, each entry newer than the one before it. -/
theorem strictlyIncreasing_iff_isChain (l : List Content) :
    strictlyIncreasing l = true ↔ l.IsChain (fun a b => newer b a = true) := by
  induction l using strictlyIncreasing.induct with
  | case1 => simp [strictlyIncreasing]
  | case2 a => simp [strictlyIncreasing]
  | case3 a b rest ih => rw [strictlyIncreasing, Bool.and_eq_true, ih, List.isChain_cons_cons]

theorem strictlyIncreasing_iff_getElem? (l : List Content) : strictlyIncreasing l = true ↔
    ∀ (i : Nat) (a b : Content), l[i]? = some a → l[i + 1]? = some b → newer b a = true := by
  rw [strictlyIncreasing_iff_isChain, List.isChain_iff_getElem]
  constructor
  · intro hchain i a b ha hb
    obtain ⟨_, rfl⟩ := List.getElem?_eq_some_iff.1 ha
    obtain ⟨hlt, rfl⟩ := List.getElem?_eq_some_iff.1 hb
    exact hchain i hlt
  · intro hpairs i hlt
    exact hpairs i _ _ (List.getElem?_eq_getElem _) (List.getElem?_eq_getElem hlt)

/-- Settles O41: the clauses of R1 in turn. -/
theorem contentNumbersCompareInSerialOrder : Obligations.ContentNumbersCompareInSerialOrder :=
  ⟨newer_iff, fun _ _ => newer_asymm, newer_irrefl, not_newer_of_half_apart, newer_or_newer,
    fun _ => rfl, fun _ _ => rfl, strictlyIncreasing_iff_getElem?⟩

end Sys2Proof.Machine
end

section
/-! What the ten checks of an accepted image give (R171, R172): the settings fit the frame, the link zone and frame memory. -/

namespace Sys2Proof.Machine

open Sys2Proof

theorem faultCode_eq_none_iff (index : BitVec 4) (image : List Byte) :
    faultCode index image = none ↔ ∀ holds ∈ imageChecks index image, holds = true := by
  simp [faultCode]

/-- Settings that pass the range check and the constraint checks 6 to 9 fit Table 3. -/
theorem settingsOf_fits {index : BitVec 4} {image : List Byte} (h : faultCode index image = none) :
    (settingsOf image).Fits := by
  have checks := (faultCode_eq_none_iff index image).1 h
  have range : checkRange image = true := checks _ (by simp [imageChecks])
  have order : orderHolds (settingsOf image) = true := checks _ (by simp [imageChecks])
  have capacity : capacityHolds (settingsOf image) = true := checks _ (by simp [imageChecks])
  have voteLine : voteLineHolds (settingsOf image) = true := checks _ (by simp [imageChecks])
  have memory : memoryHolds (settingsOf image) = true := checks _ (by simp [imageChecks])
  generalize hc : settingsOf image = c at *
  simp only [checkRange, hc, inRange, Bool.and_eq_true, decide_eq_true_eq, List.all_cons, List.all_nil] at range
  simp only [orderHolds, Bool.and_eq_true, decide_eq_true_eq] at order
  simp only [capacityHolds, decide_eq_true_eq] at capacity
  simp only [voteLineHolds, decide_eq_true_eq] at voteLine
  simp only [memoryHolds, decide_eq_true_eq] at memory
  have slots : 4 * c.slotSize = 4 * c.wh * ((3 * c.ww + 63) / 64) * 64 := by
    simp only [Settings.slotSize, Settings.pitch, Settings.bursts]; ring
  have clamp := order.2
  unfold Settings.Fits
  rw [slots]
  refine ⟨?_, ?_, ?_, ?_, ?_, ?_, ?_, ?_, ?_, ⟨capacity, voteLine, memory⟩, clamp, ?_⟩ <;> omega

end Sys2Proof.Machine
end

section
/-! The ranges of the state tables, block by block: what each block's own operations keep (Tables 2.3, 4-1, 5-1, 6-2, 10-1,
12-1, R143). -/

namespace Sys2Proof.Machine

open Sys2Proof

/-! ## Roster Table (Table 4-1) -/

/-- Sixteen entries within their ranges, and R a set of station indexes. -/
def Roster.InRange (t : Roster) : Prop :=
  t.entries.length = 16 ∧ (∀ e ∈ t.entries, e.InRange) ∧ ∀ i ∈ t.r, i < 16

theorem RosterEntry.hear_inRange (e : RosterEntry) (a : Announcement) (afn : Count16) : (e.hear a afn).InRange := by
  simp [RosterEntry.hear, RosterEntry.InRange, satSucc, Config.heardRunMax]

/-- The record that the eighth missed frame drops stays absent while the miss run goes on (R62). -/
theorem RosterEntry.miss_inRange {e : RosterEntry} (h : e.InRange) : e.miss.InRange := by
  obtain ⟨-, hmiss, -, hrecord⟩ := h
  refine ⟨by simp [RosterEntry.miss], satSucc_le _ _, by simp [RosterEntry.miss], ?_⟩
  simp only [RosterEntry.miss, satSucc, Config.missRunMax, Config.recordExpiry]
  intro hlate
  exact ite_eq_left_iff.2 fun hlater => hrecord (by omega)

theorem RosterEntry.notHeard_inRange {e : RosterEntry} (h : e.InRange) (outcome : SlotOutcome) :
    (e.notHeard outcome).InRange := RosterEntry.miss_inRange h

theorem RosterEntry.missIfPending_inRange {e : RosterEntry} (h : e.InRange) : e.missIfPending.InRange := by
  unfold RosterEntry.missIfPending; split
  · exact RosterEntry.miss_inRange h
  · exact h

theorem missFirst_length (n : Nat) (es : List RosterEntry) : (missFirst n es).length = es.length := by
  fun_induction missFirst n es <;> simp_all

theorem missFirst_inRange (n : Nat) (es : List RosterEntry) (h : ∀ e ∈ es, e.InRange) :
    ∀ e ∈ missFirst n es, e.InRange := by
  fun_induction missFirst n es with
  | case1 es => exact h
  | case2 => exact h
  | case3 n e es ih =>
    rw [List.forall_mem_cons] at h ⊢
    exact ⟨RosterEntry.missIfPending_inRange h.1, ih h.2⟩

theorem claimEntries_length (n : Nat) (levels : List Level) (i : Nat) (es : List RosterEntry) :
    (claimEntries n levels i es).length = es.length := by
  fun_induction claimEntries n levels i es <;> simp_all

theorem claimEntries_inRange (n : Nat) (levels : List Level) (i : Nat) (es : List RosterEntry)
    (h : ∀ e ∈ es, e.InRange) : ∀ e ∈ claimEntries n levels i es, e.InRange := by
  fun_induction claimEntries n levels i es with
  | case1 => exact h
  | case2 i e es ih =>
    rw [List.forall_mem_cons] at h ⊢
    exact ⟨h.1, ih h.2⟩

/-- An operation on one entry that keeps an entry's ranges keeps those of the whole table. -/
theorem Roster.inRange_modify {t : Roster} (h : t.InRange) (i : Nat) (f : RosterEntry → RosterEntry)
    (hf : ∀ e : RosterEntry, e.InRange → (f e).InRange) : ({ t with entries := t.entries.modify i f } : Roster).InRange := by
  obtain ⟨hlen, hentries, hr⟩ := h
  refine ⟨by simpa using hlen, fun e he => ?_, hr⟩
  obtain ⟨k, hk, rfl⟩ := List.mem_iff_getElem.1 he
  rw [List.getElem_modify]
  have hold : (t.entries[k]'(by simpa using hk)).InRange := hentries _ (List.getElem_mem _)
  split
  · exact hf _ hold
  · exact hold

theorem Roster.takeHeard_inRange {t : Roster} (h : t.InRange) (i : Nat) (a : Announcement) (afn : Count16) :
    (t.takeHeard i a afn).InRange := Roster.inRange_modify h i _ fun e _ => e.hear_inRange a afn

theorem Roster.takeNotHeard_inRange {t : Roster} (h : t.InRange) (i : Nat) (outcome : SlotOutcome) :
    (t.takeNotHeard i outcome).InRange := Roster.inRange_modify h i _ fun _ he => RosterEntry.notHeard_inRange he outcome

theorem Roster.missedSlots_inRange {t : Roster} (h : t.InRange) (n : Nat) (ended : TimebaseState) :
    (t.missedSlots n ended).InRange := by
  unfold Roster.missedSlots; split
  · exact ⟨by simpa [missFirst_length] using h.1, missFirst_inRange n _ h.2.1, h.2.2⟩
  · exact h

theorem Roster.frameStart_inRange {t : Roster} (h : t.InRange) (n : Nat) (cause : FrameCause) (ended : TimebaseState) :
    (t.frameStart n cause ended).InRange := by
  have hcounted : (if cause = .first then t else t.missedSlots n ended).InRange := by
    split
    · exact h
    · exact Roster.missedSlots_inRange h n ended
  refine ⟨by simpa [Roster.frameStart] using hcounted.1, ?_, by simp [Roster.frameStart]⟩
  simp only [Roster.frameStart, List.forall_mem_map]
  exact fun e he => hcounted.2.1 e he

theorem Roster.rollCall_inRange {t : Roster} (h : t.InRange) (n : Nat) (levels : List Level) :
    (t.rollCall n levels).InRange := by
  refine ⟨by simpa [Roster.rollCall, claimEntries_length] using h.1, claimEntries_inRange n levels 0 _ h.2.1, ?_⟩
  intro i hi
  simp only [Roster.rollCall, List.mem_filter, List.mem_range, Config.stations] at hi
  exact hi.1

theorem resetRoster_inRange : State.resetRoster.InRange := by
  unfold Roster.InRange State.resetRoster; decide

/-! ## Mark Aligner (2.3) -/

/-- The miss run and the silence count within their ranges (R26, R34). -/
def MarkAligner.InRange (m : MarkAligner) : Prop := m.missRun ≤ 255 ∧ m.silenceCount ≤ 2

theorem MarkAligner.closeFrame_inRange {m : MarkAligner} (h : m.InRange) (cause : FrameCause) (ended : TimebaseState) :
    (m.closeFrame cause ended).InRange := by
  obtain ⟨hmiss, hsilence⟩ := h
  refine ⟨?_, ?_⟩ <;> simp only [MarkAligner.closeFrame]
  · split
    · split
      · omega
      · exact satSucc_le _ _
    · exact hmiss
  · split
    · exact satSucc_le _ _
    · exact hsilence

theorem MarkAligner.openFrame_inRange {m : MarkAligner} (h : m.InRange) (cause : FrameCause) (state : TimebaseState) :
    (m.openFrame cause state).InRange := by
  simpa [MarkAligner.InRange] using h

theorem MarkAligner.trackBySilence_inRange {m : MarkAligner} (h : m.InRange) (told : Bool) :
    (m.trackBySilence told).InRange := ⟨h.1, Nat.zero_le _⟩

theorem MarkAligner.seekOrder_inRange (m : MarkAligner) : m.seekOrder.InRange := ⟨Nat.zero_le _, Nat.zero_le _⟩

theorem MarkAligner.followSeek_inRange {m : MarkAligner} (h : m.InRange) (ln px cut : Nat) :
    (m.followSeek ln px cut).InRange := ⟨h.1, Nat.zero_le _⟩

theorem MarkAligner.sample_kept (m : MarkAligner) (l : Level) :
    (m.sample l).1 = { m with level := (m.sample l).1.level, samples := (m.sample l).1.samples } := by
  unfold MarkAligner.sample; dsimp only
  (repeat' split) <;> rfl

theorem MarkAligner.sample_inRange {m : MarkAligner} (h : m.InRange) (l : Level) : (m.sample l).1.InRange := by
  rw [m.sample_kept l]; exact h

/-! ## Consent Unit (Table 5-1) -/

/-- The reception-veto run within its range (R90). -/
def ConsentUnit.InRange (c : ConsentUnit) : Prop := c.receptionRun ≤ 6

theorem ConsentUnit.abstain_inRange {c : ConsentUnit} (h : c.InRange) : c.abstain.InRange := by
  unfold ConsentUnit.abstain; split <;> exact h

theorem ConsentUnit.takeVerdict_inRange {c : ConsentUnit} (h : c.InRange) (level : Level) :
    (c.takeVerdict level).InRange := by
  simp only [ConsentUnit.InRange, ConsentUnit.takeVerdict]
  split
  · split
    · exact satSucc_le _ _
    · omega
  · exact h

/-! ## Membership Controller (Table 6-2) -/

/-- The three runs of the Membership Controller within their ranges (R102, R103, R105). -/
def Membership.InRange (m : Membership) : Prop := m.emptyRun ≤ 2 ∧ m.unheardRun ≤ 2 ∧ m.inputSilence ≤ 255

theorem Membership.enterListen_inRange {m : Membership} (h : m.InRange) : m.enterListen.InRange :=
  ⟨Nat.zero_le _, Nat.zero_le _, h.2.2⟩

theorem Membership.startJoining_inRange {m : Membership} (h : m.InRange) : m.startJoining.InRange := by
  unfold Membership.startJoining; split
  · exact ⟨Nat.zero_le _, h.2⟩
  · exact h

theorem Membership.raise_inRange {m : Membership} (h : m.InRange) (cause : WithdrawalCause) :
    (m.raise cause).InRange := by
  unfold Membership.raise; split <;> exact h

theorem Membership.countUnheard_inRange {m : Membership} (h : m.InRange) (unheard : Bool) :
    (m.countUnheard unheard).InRange := by
  refine ⟨h.1, ?_, h.2.2⟩
  simp only [Membership.countUnheard]; split
  · exact satSucc_le _ _
  · omega

theorem Membership.withdraw_inRange {m : Membership} (h : m.InRange) (cause : WithdrawalCause) :
    (m.withdraw cause).InRange := by
  unfold Membership.withdraw; split <;> exact ⟨h.1, Nat.zero_le _, h.2.2⟩

theorem Membership.becomeMember_inRange {m : Membership} (h : m.InRange) : m.becomeMember.InRange :=
  ⟨Nat.zero_le _, Nat.zero_le _, h.2.2⟩

theorem Membership.parkFrom_inRange {m : Membership} (h : m.InRange) : m.parkFrom.InRange := by
  unfold Membership.parkFrom; split
  · exact ⟨Nat.zero_le _, h.2⟩
  · exact h
  · exact h

/-! ## Report Port (Table 12-1) -/

/-- At most four records in the queue (R177). -/
def ReportPort.InRange (p : ReportPort) : Prop := p.queue.length ≤ 4

theorem ReportPort.post_inRange {p : ReportPort} (h : p.InRange) (body : ReportBody) : (p.post body).InRange :=
  p.post_length body h

theorem ReportPort.postFrame_inRange {p : ReportPort} (h : p.InRange) (mode : ReportMode) (f : FrameRecord) :
    (p.postFrame mode f).InRange := by
  unfold ReportPort.postFrame; split
  · exact ReportPort.post_inRange h _
  · split
    · exact h
    · exact ReportPort.post_inRange h _

theorem ReportPort.postFaults_inRange {p : ReportPort} (h : p.InRange) (attempt : Nat) (faults : List Nat) :
    (p.postFaults attempt faults).InRange := by
  induction faults generalizing p attempt with
  | nil => exact h
  | cons code rest ih => exact ih (ReportPort.post_inRange h _) _

theorem ReportPort.recordSent_inRange {p : ReportPort} (h : p.InRange) : p.recordSent.InRange := by
  unfold ReportPort.recordSent; split
  · exact h
  · rename_i hq
    simp only [ReportPort.InRange, hq, List.length_cons] at h ⊢
    omega

theorem ReportPort.clock_queue (p : ReportPort) : p.clock.1.queue = p.queue := by
  unfold ReportPort.clock; (repeat' split) <;> simp_all

theorem ReportPort.clock_inRange {p : ReportPort} (h : p.InRange) : p.clock.1.InRange := by
  rw [ReportPort.InRange, p.clock_queue]; exact h

theorem retellSilence_length (cut : Nat) (queue : List QueuedRecord) :
    (retellSilence cut queue).length = queue.length := by
  induction queue with
  | nil => rfl
  | cons q rest ih =>
    unfold retellSilence
    (repeat' split) <;> simp [ih]

/-! ## Output Pipe (R155) -/

/-- Three line places. -/
def OutputPipe.InRange (o : OutputPipe) : Prop := o.places.length = 3

theorem OutputPipe.setMark_inRange {o : OutputPipe} (h : o.InRange) (j : Nat) (mark : PlaceMark) :
    (o.setMark j mark).InRange := by simpa [OutputPipe.InRange, OutputPipe.setMark] using h

theorem OutputPipe.placeLine_inRange {o : OutputPipe} (h : o.InRange) (j : Nat) : (o.placeLine j).InRange := by
  simpa [OutputPipe.InRange, OutputPipe.placeLine] using h

theorem OutputPipe.latch_inRange {o : OutputPipe} (h : o.InRange) (shown : Option Nat) : (o.latch shown).InRange := by
  simpa [OutputPipe.InRange, OutputPipe.latch] using h

theorem OutputPipe.takeRead_inRange {o : OutputPipe} (h : o.InRange) (d : ReadData) : (o.takeRead d).InRange := by
  unfold OutputPipe.takeRead; split
  · simpa [OutputPipe.InRange] using h
  · exact h

/-! ## Input Port (R143) -/

/-- Two line buffers. -/
def InputPort.InRange (p : InputPort) : Prop := p.buffers.length = 2

theorem InputPort.emptyBuffers_inRange {p : InputPort} (h : p.InRange) : p.emptyBuffers.InRange := by
  simpa [InputPort.InRange, InputPort.emptyBuffers] using h

theorem InputPort.openLine_inRange {p : InputPort} (h : p.InRange) (b j : Nat) : (p.openLine b j).InRange := by
  simpa [InputPort.InRange, InputPort.openLine] using h

theorem InputPort.storePixel_inRange {p : InputPort} (h : p.InRange) (count : Nat) (colour : Colour) :
    (p.storePixel count colour).InRange := by simpa [InputPort.InRange, InputPort.storePixel] using h

theorem InputPort.completeLine_inRange {p : InputPort} (h : p.InRange) (bursts : Nat) :
    (p.completeLine bursts).InRange := by simpa [InputPort.InRange, InputPort.completeLine] using h

theorem InputPort.grantBurst_inRange {p : InputPort} (h : p.InRange) (b : Nat) (last : Bool) :
    (p.grantBurst b last).InRange := by simpa [InputPort.InRange, InputPort.grantBurst] using h

end Sys2Proof.Machine
end

section
/-! A running part within its ranges (R3, Tables 2.3 to 12-1), and what keeps it so: one lemma for each operation that the
commands are made of. -/

namespace Sys2Proof.Machine

open Sys2Proof

/-- The counters lie in the frame of the settings (R3). -/
def Timebase.Within (t : Timebase) (c : Settings) : Prop := 1 ≤ t.ln ∧ t.ln ≤ c.fl ∧ 1 ≤ t.px ∧ t.px ≤ c.ll

/-- Every block's runs, counts and lists lie in their ranges. -/
structure State.Blocks (s : State) : Prop where
  roster : s.roster.InRange
  mark : s.mark.InRange
  consent : s.consent.InRange
  member : s.member.InRange
  report : s.report.InRange
  out : s.out.InRange
  input : s.input.InRange

/-- What a running part keeps: settings that fit, the counters within the frame, and every block in its ranges. -/
structure State.Ranged (s : State) : Prop extends s.Blocks where
  fits : s.settings.Fits
  within : s.tb.Within s.settings

theorem State.runsInRange_iff (s : State) : s.RunsInRange ↔ s.Blocks := by
  constructor
  · rintro ⟨hroster, hmark, ⟨hreception, hempty, hunheard, hinput⟩, hreport, hout, hbuffers⟩
    exact ⟨hroster, hmark, hreception, ⟨hempty, hunheard, hinput⟩, hreport, hout, hbuffers⟩
  · rintro ⟨hroster, hmark, hreception, ⟨hempty, hunheard, hinput⟩, hreport, hout, hbuffers⟩
    exact ⟨hroster, hmark, ⟨hreception, hempty, hunheard, hinput⟩, hreport, hout, hbuffers⟩

theorem Settings.one_le_of_fits {c : Settings} (h : c.Fits) : 1 ≤ c.fl ∧ 1 ≤ c.ll := by
  unfold Settings.Fits at h; omega

/-- Pixel (1, 1) lies in every frame that fits. -/
theorem Timebase.within_start {t : Timebase} {c : Settings} (h : c.Fits) (hln : t.ln = 1) (hpx : t.px = 1) :
    t.Within c := by
  obtain ⟨hfl, hll⟩ := Settings.one_le_of_fits h
  exact ⟨by omega, by omega, by omega, by omega⟩

section
variable {s : State}

/-! ## The counters and the report queue -/

theorem State.moveTo_ranged (h : s.Ranged) (ln px : Nat) : (s.moveTo ln px).Ranged :=
  { h with within := s.moveTo_range ln px h.within }

theorem State.moveToEnd_ranged (h : s.Ranged) (ln px : Nat) : (s.moveToEnd ln px).Ranged :=
  { h with within := s.moveToEnd_range ln px h.within }

theorem State.postEvent_ranged (h : s.Ranged) (e : Event) : (s.postEvent e).Ranged :=
  { h with report := ReportPort.post_inRange h.report _ }

/-! ## Membership and the Timebase's orders -/

theorem State.settleTransmission_ranged (h : s.Ranged) : s.settleTransmission.Ranged := by
  unfold State.settleTransmission; split
  · exact h
  · exact { h with }

theorem State.enterListen_ranged (h : s.Ranged) : s.enterListen.Ranged :=
  State.settleTransmission_ranged
    { h with
      mark := s.mark.seekOrder_inRange
      roster := resetRoster_inRange
      member := Membership.enterListen_inRange h.member }

theorem State.trackOrder_ranged (h : s.Ranged) : s.trackOrder.Ranged :=
  { h with member := Membership.startJoining_inRange h.member }

theorem State.raise_ranged (h : s.Ranged) (cause : WithdrawalCause) : (s.raise cause).Ranged :=
  { h with
    member := Membership.raise_inRange h.member cause
    consent := by
      unfold State.raise; dsimp only; split
      · exact ConsentUnit.abstain_inRange h.consent
      · exact h.consent }

theorem State.rejoinStep_ranged (h : s.Ranged) : s.rejoinStep.Ranged := by
  unfold State.rejoinStep; split
  · exact State.enterListen_ranged h
  · exact h

theorem State.restStep_ranged (h : s.Ranged) : s.restStep.Ranged := by
  unfold State.restStep; split
  · split
    · exact State.enterListen_ranged h
    · exact { h with member := h.member }
  · exact h

theorem State.missStep_ranged (h : s.Ranged) (handed : Option Nat) : (s.missStep handed).Ranged := by
  unfold State.missStep
  repeat' split
  · exact State.raise_ranged h _
  · exact State.enterListen_ranged h
  all_goals exact h

theorem State.emptyStep_ranged (h : s.Ranged) (had : Bool) : (s.emptyStep had).Ranged := by
  unfold State.emptyStep; split
  · exact { h with member := ⟨Nat.zero_le _, h.member.2⟩ }
  · exact h

theorem State.silenceStep_ranged (h : s.Ranged) : s.silenceStep.Ranged := by
  have counted : ({ s with member := { s.member with
      inputSilence := satSucc Config.missRunMax s.member.inputSilence } } : State).Ranged :=
    { h with member := ⟨h.member.1, h.member.2.1, satSucc_le _ _⟩ }
  unfold State.silenceStep; dsimp only; split
  · exact State.raise_ranged counted _
  · exact counted

theorem State.memberFrameStart_ranged (h : s.Ranged) (cause : FrameCause) (handed : Option Nat) (had : Bool) :
    (s.memberFrameStart cause handed had).Ranged := by
  have opened : ({ s with member := { s.member with verdictLevel := none } } : State).Ranged :=
    { h with member := h.member }
  unfold State.memberFrameStart; dsimp only; split
  · exact opened
  · exact State.silenceStep_ranged (State.emptyStep_ranged (State.missStep_ranged
      (State.restStep_ranged (State.rejoinStep_ranged opened)) _) _)

/-! ## The Output Pipe -/

theorem State.settleUrgent_ranged (h : s.Ranged) : s.settleUrgent.Ranged := { h with out := h.out }

theorem State.placeTurn_ranged (h : s.Ranged) : s.placeTurn.Ranged := by
  unfold State.placeTurn
  repeat' split
  · exact { h with out := OutputPipe.placeLine_inRange h.out _ }
  all_goals exact h

theorem State.latchFrame_ranged (h : s.Ranged) : s.latchFrame.Ranged :=
  State.settleUrgent_ranged (State.placeTurn_ranged (State.placeTurn_ranged
    { h with out := OutputPipe.latch_inRange h.out _ }))

theorem State.endImageLine_ranged (h : s.Ranged) (j : Nat) : (s.endImageLine j).Ranged :=
  State.settleUrgent_ranged (State.placeTurn_ranged { h with out := OutputPipe.setMark_inRange h.out _ _ })

theorem State.dueColumn_ranged (h : s.Ranged) (j p : Nat) : (s.dueColumn j p).Ranged := by
  unfold State.dueColumn; split
  · exact State.settleUrgent_ranged { h with out := OutputPipe.setMark_inRange h.out _ _ }
  · exact h

/-! ## Slot ends and frame starts -/

theorem State.takeOutcome_ranged (h : s.Ranged) (i : Nat) (outcome : SlotOutcome) (record : Option Announcement) :
    (s.takeOutcome i outcome record).Ranged := by
  cases record with
  | none => exact { h with roster := Roster.takeNotHeard_inRange h.roster i outcome }
  | some a => exact { h with roster := Roster.takeHeard_inRange h.roster i a _ }

theorem State.endSlot_ranged (h : s.Ranged) (i : Nat) : (s.endSlot i).Ranged := by
  have closed : ({ s with tb := { s.tb with openSlot := none } } : State).Ranged := { h with within := h.within }
  unfold State.endSlot; dsimp only; split
  · exact State.takeOutcome_ranged closed _ _ _
  · exact closed

theorem State.cutSlot_ranged (h : s.Ranged) : s.cutSlot.Ranged := by
  have closed : ({ s with tb := { s.tb with openSlot := none } } : State).Ranged := { h with within := h.within }
  unfold State.cutSlot; dsimp only
  repeat' split
  · exact State.takeOutcome_ranged closed _ _ _
  · exact closed
  · exact h

theorem State.cutImageLine_ranged (h : s.Ranged) : s.cutImageLine.Ranged := by
  unfold State.cutImageLine; split
  · refine State.endImageLine_ranged ?_ _
    exact { h with within := h.within }
  · exact h

theorem State.openFrame_ranged (h : s.Ranged) (cause : FrameCause) (ended : TimebaseState) :
    (s.openFrame cause ended).Ranged :=
  { h with
    within := Timebase.within_start h.fits rfl rfl
    mark := MarkAligner.openFrame_inRange (MarkAligner.closeFrame_inRange h.mark _ _) _ _
    roster := Roster.frameStart_inRange h.roster _ _ _
    consent := h.consent }

theorem State.reportMarkLost_ranged (h : s.Ranged) (reached : Bool) : (s.reportMarkLost reached).Ranged := by
  unfold State.reportMarkLost; split
  · exact State.postEvent_ranged h _
  · exact h

theorem State.takeSilence_ranged (h : s.Ranged) (reached : Bool) : (s.takeSilence reached).Ranged := by
  unfold State.takeSilence; split
  · refine State.postEvent_ranged (State.trackOrder_ranged ?_) _
    exact { h with mark := MarkAligner.trackBySilence_inRange h.mark _ }
  · exact h

theorem State.frameStart_ranged (h : s.Ranged) (cause : FrameCause) (ended : TimebaseState) :
    (s.frameStart cause ended).Ranged :=
  State.latchFrame_ranged (State.memberFrameStart_ranged
    (State.takeSilence_ranged (State.reportMarkLost_ranged (State.openFrame_ranged h _ _) _) _) _ _ _)

theorem State.naturalFrameStart_ranged (h : s.Ranged) : s.naturalFrameStart.Ranged := by
  unfold State.naturalFrameStart; split
  · exact { h with within := h.within }
  · exact State.frameStart_ranged h _ _

theorem State.frameStartWhen_ranged (h : s.Ranged) (met : Bool) : (s.frameStartWhen met).Ranged := by
  unfold State.frameStartWhen; split
  · exact State.naturalFrameStart_ranged h
  · exact h

theorem State.reload_ranged (h : s.Ranged) (track : Bool) : (s.reload track).Ranged := by
  have quiet : ({ (s.cutSlot).cutImageLine with link := (s.cutSlot).cutImageLine.link.endEarly } : State).Ranged :=
    { State.cutImageLine_ranged (State.cutSlot_ranged h) with }
  unfold State.reload
  apply State.frameStart_ranged
  split
  · exact State.trackOrder_ranged quiet
  · exact quiet

/-! ## Edges of MARK -/

theorem State.seekEdge_ranged (h : s.Ranged) (ln px : Nat) : (s.seekEdge ln px).Ranged := by
  unfold State.seekEdge; dsimp only
  have followed (cut : Nat) : ({ s with mark := s.mark.followSeek ln px cut } : State).Ranged :=
    { h with mark := MarkAligner.followSeek_inRange h.mark _ _ _ }
  split
  · exact State.trackOrder_ranged (State.postEvent_ranged (followed _) _)
  · exact State.reload_ranged (State.postEvent_ranged (followed _) _) _

theorem State.silenceEdge_ranged (h : s.Ranged) : s.silenceEdge.Ranged := by
  refine State.trackOrder_ranged { h with mark := MarkAligner.followSeek_inRange h.mark 1 1 0, report := ?_ }
  dsimp only [ReportPort.InRange]; split
  · rw [retellSilence_length]; exact h.report
  · exact h.report

theorem State.catchEdge_ranged (h : s.Ranged) (ln px : Nat) : (s.catchEdge ln px).Ranged := by
  refine State.reload_ranged ?_ false
  exact { h with mark := h.mark }

theorem State.strayEdge_ranged (h : s.Ranged) (ln px : Nat) : (s.strayEdge ln px).Ranged := by
  unfold State.strayEdge; split
  · exact { h with mark := h.mark }
  · refine State.reload_ranged ?_ false
    exact { h with mark := h.mark }

theorem State.trackingEdge_ranged (h : s.Ranged) (ln px : Nat) : (s.trackingEdge ln px).Ranged := by
  unfold State.trackingEdge; split
  · exact { h with mark := h.mark }
  · exact State.catchEdge_ranged h ln px
  · exact State.strayEdge_ranged h ln px
  · exact h

theorem State.edgeHere_ranged (h : s.Ranged) : s.edgeHere.Ranged := by
  unfold State.edgeHere
  repeat' split
  · exact State.silenceEdge_ranged h
  · exact State.seekEdge_ranged h _ _
  · exact State.trackingEdge_ranged h _ _

theorem State.Ranged.of_wrapMet (h : s.Ranged) (met : Bool) :
    ({ s with tb := { s.tb with wrapMet := met } } : State).Ranged := { h with within := h.within }

theorem State.edgeBeforeWrap_ranged (h : s.Ranged) : s.edgeBeforeWrap.Ranged := by
  unfold State.edgeBeforeWrap; dsimp only; split
  · have leaving : ({ s with
        mark := ({ s.mark with level := .low } : MarkAligner).followSeek 1 1 0
        tb := { s.tb with stateBefore := s.tb.pixelState s.member.state } } : State).Ranged :=
      { h with mark := MarkAligner.followSeek_inRange h.mark 1 1 0, within := h.within }
    have begun := State.postEvent_ranged (State.reload_ranged leaving true) (.trackingEdge 0)
    exact State.Ranged.of_wrapMet begun true
  · exact { h with mark := h.mark }

theorem State.takeEdge_ranged (h : s.Ranged) (time : EdgeTime) : (s.takeEdge time).Ranged := by
  cases time with
  | pixel ln px =>
    refine State.edgeHere_ranged ?_
    exact { State.moveTo_ranged h ln px with mark := h.mark }
  | wrap => exact State.edgeBeforeWrap_ranged h

/-! ## Lines, talk slots and the vote -/

theorem State.lineStart_ranged (h : s.Ranged) (line : Nat) : (s.lineStart line).Ranged := by
  unfold State.lineStart; split
  · exact { State.moveTo_ranged h line 1 with }
  · exact h

theorem State.catchZoneEntry_ranged (h : s.Ranged) : s.catchZoneEntry.Ranged :=
  { State.moveTo_ranged h s.settings.cz 1 with mark := h.mark }

/-- What changes the Link Interface alone leaves every range as it is. -/
theorem State.Ranged.of_link (h : s.Ranged) (l : LinkInterface) : ({ s with link := l } : State).Ranged := { h with }

theorem State.openReceiver_ranged (h : s.Ranged) : s.openReceiver.Ranged := by
  unfold State.openReceiver; split
  · exact State.Ranged.of_link h _
  · exact h

theorem State.openTransmitter_ranged (h : s.Ranged) (slot : Nat) : (s.openTransmitter slot).Ranged := by
  unfold State.openTransmitter
  repeat' split
  · exact State.Ranged.of_link h _
  · exact State.Ranged.of_link h _
  · exact h

theorem State.slotBegin_ranged (h : s.Ranged) (slot : Nat) : (s.slotBegin slot).Ranged := by
  have there := State.moveTo_ranged h (s.settings.slotFirstLine slot) 1
  unfold State.slotBegin; dsimp only; split
  · refine State.openTransmitter_ranged (State.openReceiver_ranged ?_) slot
    exact { there with within := there.within }
  · exact h

theorem State.talkCell_ranged (h : s.Ranged) (cell : Nat) (samples : Samples) : (s.talkCell cell samples).Ranged := by
  unfold State.talkCell; dsimp only
  repeat' split
  · refine State.Ranged.of_link ?_ _
    unfold State.placeTransmitter; split
    · exact State.Ranged.of_link (State.moveToEnd_ranged h _ _) _
    · exact State.moveToEnd_ranged h _ _
  all_goals exact h

theorem State.announceSent_ranged (h : s.Ranged) : s.announceSent.Ranged := by
  unfold State.announceSent; split
  · exact State.Ranged.of_link (State.moveToEnd_ranged h _ _) _
  · exact h

theorem State.slotEnd_ranged (h : s.Ranged) (slot : Nat) : (s.slotEnd slot).Ranged := by
  unfold State.slotEnd; split
  · exact State.endSlot_ranged (State.moveToEnd_ranged h _ _) _
  · exact h

theorem State.rollCallCell_ranged (h : s.Ranged) : s.rollCallCell.Ranged := by
  have there := State.moveTo_ranged h s.settings.vl (s.own * s.settings.cl + 1)
  unfold State.rollCallCell; dsimp only; split
  · exact State.Ranged.of_link there _
  · exact there

theorem State.joinerRollCall_ranged (h : s.Ranged) (results : Results) : (s.joinerRollCall results).Ranged := by
  refine { h with within := h.within, member := ⟨?_, Nat.zero_le _, h.member.2.2⟩ }
  unfold State.joinerRollCall; dsimp only; split
  · exact satSucc_le _ _
  · omega

theorem State.memberRollCall_ranged (h : s.Ranged) (results : Results) : (s.memberRollCall results).Ranged := by
  have claimLost : s.claimLostCheck.Ranged := by
    unfold State.claimLostCheck; split
    · exact State.raise_ranged h _
    · exact h
  have unheard : (s.claimLostCheck.unheardCheck results).Ranged := by
    have counted : ({ s.claimLostCheck with
        member := s.claimLostCheck.member.countUnheard results.unheard } : State).Ranged :=
      { claimLost with member := Membership.countUnheard_inRange claimLost.member _ }
    unfold State.unheardCheck; dsimp only; split
    · exact State.raise_ranged counted _
    · exact counted
  unfold State.memberRollCall State.outOfStepCheck; split
  · exact State.raise_ranged unheard _
  · exact unheard

theorem State.rollCallWith_ranged (h : s.Ranged) (levels : List Level) : (s.rollCallWith levels).Ranged := by
  have taken : (s.rosterRollCall levels).Ranged :=
    { h with roster := Roster.rollCall_inRange h.roster s.settings.n levels }
  unfold State.rollCallWith; dsimp only; split
  · rename_i results _
    have voted : ((s.rosterRollCall levels).consentRollCall results).Ranged := { taken with consent := taken.consent }
    unfold State.membershipRollCall
    repeat' split
    · exact State.memberRollCall_ranged voted _
    · exact State.joinerRollCall_ranged voted _
    · exact { voted with member := ⟨voted.member.1, Nat.zero_le _, voted.member.2.2⟩ }
  · exact taken

theorem State.rollCallClose_ranged (h : s.Ranged) (cells : List Samples) : (s.rollCallClose cells).Ranged := by
  have there := State.moveToEnd_ranged h s.settings.vl (Config.stations * s.settings.cl)
  unfold State.rollCallClose; dsimp only
  repeat' split
  · exact State.rollCallWith_ranged there _
  · exact there
  · exact { there with member := ⟨there.member.1, Nat.zero_le _, there.member.2.2⟩ }

theorem State.verdictLatch_ranged (h : s.Ranged) : s.verdictLatch.Ranged :=
  State.Ranged.of_link (State.moveTo_ranged h (s.settings.vl + 1) 1) _

theorem State.verdictSample_ranged (h : s.Ranged) (samples : Samples) : (s.verdictSample samples).Ranged := by
  have there := State.moveToEnd_ranged h (s.settings.vl + 1) (s.settings.middle + 1)
  have recorded : ((s.moveToEnd (s.settings.vl + 1) (s.settings.middle + 1)).recordVerdict samples.level).Ranged :=
    { there with consent := ConsentUnit.takeVerdict_inRange there.consent _, member := there.member }
  unfold State.verdictSample; dsimp only; split
  · unfold State.receptionCheck; split
    · exact { recorded with member := Membership.raise_inRange recorded.member _ }
    · exact recorded
  · exact there

/-! ## The swap line -/

theorem State.actOnWord_ranged (h : s.Ranged) (word : SwapWord) : (s.actOnWord word).Ranged := by
  cases word with
  | stays =>
    unfold State.actOnWord State.stayAtSwap; dsimp only; split
    · exact { h with }
    · exact h
  | withdraws cause =>
    refine State.settleTransmission_ranged (State.postEvent_ranged ?_ _)
    exact { h with consent := Nat.zero_le _, member := Membership.withdraw_inRange h.member _ }
  | joins target =>
    refine State.postEvent_ranged ?_ _
    exact { h with member := Membership.becomeMember_inRange h.member }
  | founds =>
    refine State.postEvent_ranged ?_ _
    exact { h with within := h.within, member := Membership.becomeMember_inRange h.member }
  | failedJoin target => exact { h with }
  | none => exact h

theorem State.swapLine_ranged (h : s.Ranged) : s.swapLine.Ranged := by
  have there := State.moveTo_ranged h s.settings.sw 1
  have acted := State.actOnWord_ranged there (s.moveTo s.settings.sw 1).swapWord
  unfold State.swapLine State.takeSwapLine State.reportFrame; split
  · exact { acted with report := ReportPort.postFrame_inRange acted.report _ _ }
  · exact acted

/-! ## The panel -/

theorem State.imageLineStart_ranged (h : s.Ranged) (line : Nat) : (s.imageLineStart line).Ranged := by
  have there := State.moveTo_ranged h (s.settings.imageLn line) (s.settings.columnPx 0)
  unfold State.imageLineStart; dsimp only; split
  · refine State.dueColumn_ranged ?_ _ _
    exact { there with within := there.within }
  · exact h

theorem State.imageLineEnd_ranged (h : s.Ranged) (line : Nat) : (s.imageLineEnd line).Ranged := by
  have there := State.moveToEnd_ranged h (s.settings.imageLn line) s.settings.lastColumnPx
  unfold State.imageLineEnd; dsimp only; split
  · refine State.endImageLine_ranged ?_ _
    exact { there with within := there.within }
  · exact h

theorem State.columnDue_ranged (h : s.Ranged) (line column : Nat) : (s.columnDue line column).Ranged := by
  unfold State.columnDue; split
  · exact State.dueColumn_ranged (State.moveTo_ranged h _ _) _ _
  · exact h

theorem State.whenNext_ranged (h : s.Ranged) (next : Bool) {t : State} (ht : t.Ranged) : (s.whenNext next t).Ranged := by
  unfold State.whenNext; split
  · exact ht
  · exact h

theorem State.readerCompletion_ranged (h : s.Ranged) (d : ReadData) : (s.readerCompletion d).Ranged := by
  refine State.whenNext_ranged h _ (State.settleUrgent_ranged ?_)
  exact { h with out := OutputPipe.takeRead_inRange h.out d }

/-! ## The frame input port -/

theorem State.discardFilling_ranged (h : s.Ranged) : s.discardFilling.Ranged := by
  unfold State.discardFilling; split
  · exact { h with input := h.input }
  · exact h

theorem State.defect_ranged (h : s.Ranged) : s.defect.Ranged :=
  { State.discardFilling_ranged h with input := InputPort.emptyBuffers_inRange h.input }

theorem State.strayWord_ranged (h : s.Ranged) : s.strayWord.Ranged := { h with input := h.input }

theorem State.ignoreWord_ranged (h : s.Ranged) : s.ignoreWord.Ranged := { h with input := h.input }

theorem State.frameOpen_ranged (h : s.Ranged) (content : Content) : (s.frameOpen content).Ranged := by
  have abandoned : s.abandonFrame.Ranged := by
    unfold State.abandonFrame; split
    · exact { State.discardFilling_ranged h with input := InputPort.emptyBuffers_inRange h.input }
    · exact h
  unfold State.frameOpen State.requestAdmission; dsimp only
  refine { abandoned with input := ?_ }
  dsimp only; split <;> exact abandoned.input

theorem State.frameFlags_ranged (h : s.Ranged) (payload : BitVec 16) : (s.frameFlags payload).Ranged := by
  have honoured : (s.honourFlags payload).Ranged := { h with input := h.input }
  unfold State.frameFlags
  repeat' split
  · exact State.strayWord_ranged h
  · exact honoured
  · exact State.defect_ranged h
  · exact honoured
  · exact State.ignoreWord_ranged h

theorem State.lineOpen_ranged (h : s.Ranged) (index : BitVec 16) : (s.lineOpen index).Ranged := by
  unfold State.lineOpen State.openLine
  repeat' split
  · exact State.strayWord_ranged h
  · exact { h with input := InputPort.openLine_inRange h.input _ _ }
  · exact State.defect_ranged h
  · exact State.defect_ranged h
  · exact State.ignoreWord_ranged h

theorem State.pixelWord_ranged (h : s.Ranged) (colour : Colour) : (s.pixelWord colour).Ranged := by
  have stored (count : Nat) : ({ s with input := s.input.storePixel count colour } : State).Ranged :=
    { h with input := InputPort.storePixel_inRange h.input _ _ }
  unfold State.pixelWord State.storePixel; dsimp only
  repeat' split
  · exact State.strayWord_ranged h
  · rename_i count _ _
    exact { stored count with input := InputPort.completeLine_inRange (stored count).input s.settings.bursts }
  · exact stored _
  · exact State.defect_ranged h
  · exact State.ignoreWord_ranged h

theorem State.frameClose_ranged (h : s.Ranged) (count : BitVec 16) : (s.frameClose count).Ranged := by
  unfold State.frameClose State.closeFrame
  repeat' split
  · exact State.strayWord_ranged h
  · exact { h with input := h.input }
  · exact State.defect_ranged h
  · exact { h with input := h.input }

theorem State.controlWord_ranged (h : s.Ranged) (word : BitVec 24) : (s.controlWord word).Ranged := by
  unfold State.controlWord; split
  · exact State.frameOpen_ranged h _
  · exact State.frameFlags_ranged h _
  · exact State.lineOpen_ranged h _
  · exact State.frameClose_ranged h _
  · unfold State.damagedWord; split
    · exact State.strayWord_ranged h
    · exact State.defect_ranged h
    · exact State.ignoreWord_ranged h

/-! ## Requests -/

theorem State.takeReport_ranged (h : s.Ranged) : s.takeReport.Ranged := { h with }

theorem State.frameOpenArrival_ranged (h : s.Ranged) : s.frameOpenArrival.Ranged := by
  refine State.whenNext_ranged h _ ?_
  exact { h with member := ⟨h.member.1, h.member.2.1, Nat.zero_le _⟩ }

theorem State.actOnLeave_ranged (h : s.Ranged) : s.actOnLeave.Ranged := by
  have parked : s.parkNow.Ranged := by
    refine State.postEvent_ranged ?_ _
    exact { h with member := Membership.parkFrom_inRange h.member }
  unfold State.actOnLeave; split
  · unfold State.leaveMember
    repeat' split
    · exact State.raise_ranged h _
    · exact h
    · exact { h with member := h.member }
  · exact parked
  · exact parked
  · exact parked
  · exact { h with member := h.member }
  · exact h
  · exact h

theorem State.actOnRejoin_ranged (h : s.Ranged) : s.actOnRejoin.Ranged := by
  unfold State.actOnRejoin; split
  · exact { h with member := h.member }
  · exact State.postEvent_ranged h _
  · exact State.postEvent_ranged h _
  · exact State.postEvent_ranged h _
  · exact State.postEvent_ranged h _
  · exact h
  · exact h

/-! ## The Memory Port -/

theorem State.grant_ranged (h : s.Ranged) : s.grant.Ranged := by
  unfold State.grant
  repeat' split
  · exact h
  · exact h
  · exact { h with }
  · exact { h with }
  · unfold State.grantWriter; dsimp only; split
    · exact { h with input := InputPort.grantBurst_inRange h.input _ _ }
    · exact { h with }

theorem State.burstEnds_ranged (h : s.Ranged) (b : Burst) : ((s.deliver b).endBurst).grant.Ranged := by
  refine State.grant_ranged ?_
  cases b <;> exact { h with }

/-! ## The pixel clock -/

theorem State.takeSamples_ranged (h : s.Ranged) : s.takeSamples.Ranged :=
  { h with mark := MarkAligner.sample_inRange h.mark _, within := h.within }

theorem State.endPixel_ranged (h : s.Ranged) : s.endPixel.Ranged := { h with within := h.within }

theorem State.clockReport_ranged (h : s.Ranged) : s.clockReport.Ranged :=
  { h with report := ReportPort.clock_inRange h.report }

theorem State.beginPixel_ranged (h : s.Ranged) (ln px : Nat) (hw : 1 ≤ ln ∧ ln ≤ s.settings.fl ∧ 1 ≤ px ∧ px ≤ s.settings.ll) :
    (s.beginPixel ln px).Ranged := by
  have moved : ({ s with tb := s.tb.beginAt s.member.state ln px } : State).Ranged := { h with within := hw }
  have placed : ({ s with tb := s.tb.beginAt s.member.state ln px } : State).followCell.Ranged := by
    unfold State.followCell State.placeTransmitter
    repeat' split
    · exact State.Ranged.of_link moved _
    · exact moved
    · exact moved
  exact { placed with }

theorem State.nextPixel_ranged (h : s.Ranged) : s.nextPixel.Ranged := by
  have clocked := State.clockReport_ranged h
  obtain ⟨hln, hfl, hpx, hll⟩ := h.within
  unfold State.nextPixel; dsimp only
  repeat' split
  · exact State.beginPixel_ranged clocked _ _ ⟨hln, hfl, by omega, by simp; omega⟩
  · exact State.beginPixel_ranged clocked _ _ ⟨by omega, by simp; omega, by omega, by simp; omega⟩
  · exact { clocked with }

end

end Sys2Proof.Machine
end

section
/-! Every step keeps the counters, runs and lists in their ranges. -/

namespace Sys2Proof

/-- The commands that act on a held part: the start-up commands and the end of a record. -/
def Instr.actsHeld : Instr → Bool
  | .reset _ => true
  | .resetRelease _ => true
  | .imageReadDone _ => true
  | .recordSent => true
  | _ => false

namespace Machine

/-- A held part takes no other command. -/
theorem exec_held (c : Instr) (s : State) (hr : s.running = false) (hc : c.actsHeld = false) : exec c s = .next s := by
  have held (u : State) : (.next (s.whenRunning u) : Host.Outcome State Fault Refusal) = .next s := by simp [hr]
  cases c with
  | reset | resetRelease | imageReadDone | recordSent => cases hc
  | burstCompletion => simp [exec, execBurstCompletion, hr]
  | _ => exact held _

/-- A command that a running part takes. -/
theorem next_of_running {s t u : State} (hr : s.running = true)
    (hx : (.next (s.whenRunning u) : Host.Outcome State Fault Refusal) = .next t) : t = u := by
  simpa [hr] using hx.symm

theorem release_of_running {s : State} (hr : s.running = true) (straps : ReleasePins) : s.release straps = s := by
  simp [State.release, (s.running_iff).1 hr]

theorem imageRead_of_running {s : State} (hr : s.running = true) (bytes : List Byte) : s.imageRead bytes = s := by
  simp [State.imageRead, (s.running_iff).1 hr]

/-- The end of the burst in flight, where the next state is answered (R151). -/
theorem burstCompletion_next {s t : State} (hr : s.running = true) (hx : exec .burstCompletion s = .next t) :
    t = s ∨ ∃ b, t = ((s.deliver b).endBurst).grant := by
  simp only [exec, execBurstCompletion, hr, if_true] at hx
  split at hx
  · split at hx
    · exact Or.inr ⟨_, (Host.Outcome.next.inj hx).symm⟩
    · cases hx
  · exact Or.inl (Host.Outcome.next.inj hx).symm

/-- A running part stays running and in its ranges at every command but RESET. -/
theorem exec_ranged {c : Instr} {s t : State} (h : s.Ranged) (hr : s.running = true) (hc : ∀ kind, c ≠ .reset kind)
    (hx : exec c s = .next t) : t.Ranged ∧ t.loader = s.loader := by
  have taken {u : State} (hx : (.next (s.whenRunning u) : Host.Outcome State Fault Refusal) = .next t) (hu : u.Ranged)
      (hl : u.loader = s.loader) : t.Ranged ∧ t.loader = s.loader := by
    rw [next_of_running hr hx]; exact ⟨hu, hl⟩
  cases c with
  | reset kind => exact absurd rfl (hc kind)
  | resetRelease straps =>
    obtain rfl := Host.Outcome.next.inj hx
    rw [release_of_running hr]; exact ⟨h, rfl⟩
  | imageReadDone bytes =>
    obtain rfl := Host.Outcome.next.inj hx
    rw [imageRead_of_running hr]; exact ⟨h, rfl⟩
  | frameStart => exact taken hx (State.naturalFrameStart_ranged h) (by simp)
  | markLost => exact taken hx (State.frameStartWhen_ranged h _) (by simp)
  | seekSilence => exact taken hx (State.frameStartWhen_ranged h _) (by simp)
  | restEnd => exact taken hx (State.frameStartWhen_ranged h _) (by simp)
  | inputTimeout => exact taken hx (State.frameStartWhen_ranged h _) (by simp)
  | lineStart line => exact taken hx (State.lineStart_ranged h line) (by simp)
  | markEdge time => exact taken hx (State.takeEdge_ranged h time) (by simp)
  | slotBegin slot => exact taken hx (State.slotBegin_ranged h slot) (by simp)
  | announceSent => exact taken hx (State.announceSent_ranged h) (by simp)
  | slotEnd slot => exact taken hx (State.slotEnd_ranged h slot) (by simp)
  | recordExpiry slot =>
    refine taken hx ?_ ?_
    · split
      · exact State.slotEnd_ranged h slot
      · exact h
    · split <;> simp
  | rollCallCell => exact taken hx (State.rollCallCell_ranged h) (by simp)
  | rollCallClose cells => exact taken hx (State.rollCallClose_ranged h cells) (by simp)
  | verdictLatch => exact taken hx (State.verdictLatch_ranged h) (by simp)
  | verdictSample samples => exact taken hx (State.verdictSample_ranged h samples) (by simp)
  | swapLine => exact taken hx (State.swapLine_ranged h) (by simp)
  | catchZoneEntry => exact taken hx (State.catchZoneEntry_ranged h) (by simp)
  | imageLineStart line => exact taken hx (State.imageLineStart_ranged h line) (by simp)
  | imageLineEnd line => exact taken hx (State.imageLineEnd_ranged h line) (by simp)
  | underrun line column => exact taken hx (State.columnDue_ranged h line column) (by simp)
  | readerCompletion d => exact taken hx (State.readerCompletion_ranged h d) (by simp)
  | frameOpen content => exact taken hx (State.frameOpen_ranged h content) (by simp)
  | frameFlags payload => exact taken hx (State.frameFlags_ranged h payload) (by simp)
  | lineOpen index => exact taken hx (State.lineOpen_ranged h index) (by simp)
  | pixelWord colour => exact taken hx (State.pixelWord_ranged h colour) (by simp)
  | frameClose count => exact taken hx (State.frameClose_ranged h count) (by simp)
  | damagedControlWord word => exact taken hx (State.controlWord_ranged h word) (by simp)
  | frameOpenArrival => exact taken hx (State.frameOpenArrival_ranged h) (by simp)
  | leave => exact taken hx (State.whenNext_ranged h _ (State.actOnLeave_ranged (State.takeReport_ranged h))) (by simp)
  | rejoin => exact taken hx (State.whenNext_ranged h _ (State.actOnRejoin_ranged (State.takeReport_ranged h))) (by simp)
  | refreshClaim => exact taken hx (State.whenNext_ranged h _ (State.grant_ranged { h with })) (by simp)
  | writerClaim slot line => exact taken hx (State.whenNext_ranged h _ (State.grant_ranged { h with })) (by simp)
  | readerClaim item => exact taken hx (State.whenNext_ranged h _ (State.grant_ranged { h with })) (by simp)
  | burstCompletion =>
    obtain rfl | ⟨b, rfl⟩ := burstCompletion_next hr hx
    · exact ⟨h, rfl⟩
    · exact ⟨State.burstEnds_ranged h b, by simp⟩
  | memoryDiscard slot => exact taken hx (State.whenNext_ranged h _ { h with }) (by simp)
  | readerWithdrawal line => exact taken hx (State.whenNext_ranged h _ { h with }) (by simp)
  | recordSent =>
    obtain rfl := Host.Outcome.next.inj hx
    exact ⟨{ h with report := ReportPort.recordSent_inRange h.report }, rfl⟩
  | markRisingEdge => exact taken hx { h with mark := h.mark } rfl
  | talkCellSettled cell samples => exact taken hx (State.talkCell_ranged h cell samples) (by simp)

/-! ## A held part -/

/-- What a held part keeps: the counters at (1, 1) (R5), and every block in its ranges. -/
structure State.HeldRanged (s : State) : Prop extends s.Blocks where
  ln : s.tb.ln = 1
  px : s.tb.px = 1

/-- The counters and the runs in their ranges, for a part that runs or is held. -/
theorem ranged_iff (s : State) :
    s.CountersInRange ∧ s.RunsInRange ↔ (s.running = true → s.Ranged) ∧ (s.running = false → s.HeldRanged) := by
  rw [s.runsInRange_iff]
  constructor
  · rintro ⟨⟨hrun, hheld⟩, hblocks⟩
    exact ⟨fun hr => { hblocks with fits := (hrun hr).1, within := (hrun hr).2 },
      fun hr => { hblocks with ln := (hheld hr).1, px := (hheld hr).2 }⟩
  · rintro ⟨hrun, hheld⟩
    refine ⟨⟨fun hr => ⟨(hrun hr).fits, (hrun hr).within⟩, fun hr => ⟨(hheld hr).ln, (hheld hr).px⟩⟩, ?_⟩
    cases hr : s.running with
    | true => exact (hrun hr).toBlocks
    | false => exact (hheld hr).toBlocks

theorem ranged_of_running {s : State} (hr : s.running = true) (h : s.Ranged) : s.CountersInRange ∧ s.RunsInRange :=
  (ranged_iff s).2 ⟨fun _ => h, fun hheld => absurd hr (by simp [hheld])⟩

theorem ranged_of_held {s : State} (hr : s.running = false) (h : s.HeldRanged) : s.CountersInRange ∧ s.RunsInRange :=
  (ranged_iff s).2 ⟨fun hrun => absurd hr (by simp [hrun]), fun _ => h⟩

theorem resetBy_held (s : State) (kind : ResetKind) : (s.resetBy kind).running = false := rfl

theorem resetBy_heldRanged (s : State) (kind : ResetKind) : (s.resetBy kind).HeldRanged where
  roster := resetRoster_inRange
  mark := ⟨Nat.zero_le _, Nat.zero_le _⟩
  consent := Nat.zero_le _
  member := ⟨Nat.zero_le _, Nat.zero_le _, Nat.zero_le _⟩
  report := Nat.zero_le _
  out := rfl
  input := rfl
  ln := rfl
  px := rfl

section
variable {s : State}

/-- The part starts to run at (1, 1) with settings that fit (R174). -/
theorem State.accept_ranged (h : s.HeldRanged) {c : Settings} (hc : c.Fits) : (s.accept c).Ranged := by
  have released : ({ s with
      settings := c
      loader := { s.loader with phase := .accepted }
      report := { s.report with divisor := c.reportDivisor } } : State).Ranged :=
    { h with fits := hc, within := Timebase.within_start hc h.ln h.px, report := h.report }
  have started := State.frameStart_ranged (State.enterListen_ranged released) .first .seeking
  unfold State.accept; dsimp only
  exact { started with
    report := ReportPort.post_inRange (ReportPort.postFaults_inRange started.report _ _) _ }

theorem State.accept_running (c : Settings) : (s.accept c).running = true := by
  simp [State.accept, State.running]

theorem State.failAttempt_held (code : Nat) : (s.failAttempt code).running = false := by
  unfold State.failAttempt State.halt; dsimp only; split <;> rfl

theorem State.failAttempt_heldRanged (h : s.HeldRanged) (code : Nat) : (s.failAttempt code).HeldRanged := by
  unfold State.failAttempt State.halt; dsimp only; split
  · exact { h with }
  · exact { h with member := h.member, report := ReportPort.postFaults_inRange h.report _ _ }

/-- A reading attempt ends: the part runs on an image that fits, or stays held. -/
theorem State.imageRead_keeps (hr : s.running = false) (h : s.HeldRanged) (bytes : List Byte) :
    (s.imageRead bytes).CountersInRange ∧ (s.imageRead bytes).RunsInRange := by
  have received : ({ s with loader := { s.loader with phase := .checking, image := bytes.map some } } : State).HeldRanged :=
    { h with }
  unfold State.imageRead; dsimp only
  split
  · split
    · exact ranged_of_held (State.failAttempt_held _) (State.failAttempt_heldRanged received _)
    · rename_i hcode
      exact ranged_of_running (State.accept_running _) (State.accept_ranged received (settingsOf_fits hcode))
  · exact ranged_of_held hr h

theorem State.release_keeps (hr : s.running = false) (h : s.HeldRanged) (straps : ReleasePins) :
    (s.release straps).CountersInRange ∧ (s.release straps).RunsInRange := by
  unfold State.release; split
  · exact ranged_of_held rfl { h with }
  · exact ranged_of_held hr h

theorem exec_keeps_ranges {c : Instr} {s t : State} (h : s.CountersInRange ∧ s.RunsInRange) (hx : exec c s = .next t) :
    t.CountersInRange ∧ t.RunsInRange := by
  by_cases hreset : ∃ kind, c = .reset kind
  · obtain ⟨kind, rfl⟩ := hreset
    obtain rfl := Host.Outcome.next.inj hx
    exact ranged_of_held (resetBy_held s kind) (resetBy_heldRanged s kind)
  obtain ⟨hrun, hheld⟩ := (ranged_iff s).1 h
  cases hr : s.running with
  | true =>
    obtain ⟨ht, hl⟩ := exec_ranged (hrun hr) hr (fun kind hc => hreset ⟨kind, hc⟩) hx
    exact ranged_of_running (by rw [State.running_congr hl, hr]) ht
  | false =>
    have hs := hheld hr
    cases hc : c.actsHeld with
    | false =>
      rw [exec_held c s hr hc] at hx
      obtain rfl := Host.Outcome.next.inj hx
      exact h
    | true =>
      cases c with
      | reset kind => exact absurd ⟨kind, rfl⟩ hreset
      | resetRelease straps =>
        obtain rfl := Host.Outcome.next.inj hx
        exact State.release_keeps hr hs straps
      | imageReadDone bytes =>
        obtain rfl := Host.Outcome.next.inj hx
        exact State.imageRead_keeps hr hs bytes
      | recordSent =>
        obtain rfl := Host.Outcome.next.inj hx
        exact ranged_of_held hr { hs with report := ReportPort.recordSent_inRange hs.report }
      | _ => cases hc

/-! ## The step of an empty queue -/

theorem tick_loader_phase (s : State) : s.tick.loader.phase = s.loader.phase := by
  unfold State.tick; (repeat' split) <;> simp_all [State.takeSamples, State.endPixel, State.clockLoader]

theorem tick_keeps_ranges {s : State} (h : s.CountersInRange ∧ s.RunsInRange) :
    s.tick.CountersInRange ∧ s.tick.RunsInRange := by
  have hrunning : s.tick.running = s.running := by simp [State.running, tick_loader_phase]
  obtain ⟨hrun, hheld⟩ := (ranged_iff s).1 h
  cases hr : s.running with
  | true =>
    refine ranged_of_running (hrunning.trans hr) ?_
    unfold State.tick; rw [(s.running_iff).1 hr]; dsimp only
    split
    · exact State.takeSamples_ranged (hrun hr)
    · exact State.endPixel_ranged (hrun hr)
    · exact State.nextPixel_ranged (hrun hr)
  | false =>
    have hs := hheld hr
    refine ranged_of_held (hrunning.trans hr) ?_
    have hphase : s.loader.phase ≠ .accepted := fun hp => by simp [(s.running_iff).2 hp] at hr
    unfold State.tick; split
    · contradiction
    · exact { hs with report := ReportPort.clock_inRange hs.report }
    · exact hs
    · exact { hs with }
    · exact hs

end

/-- Settles O55: a step is the pixel clock's or the front command's, and each keeps the ranges. -/
theorem everyStepKeepsCountersAndRuns : Obligations.EveryStepKeepsCountersAndRuns := by
  intro s t hcounters hruns hstep
  unfold step at hstep
  split at hstep
  · obtain rfl := Host.Outcome.next.inj hstep
    exact tick_keeps_ranges ⟨hcounters, hruns⟩
  · rename_i c rest _
    exact exec_keeps_ranges (s := { s with pending := rest }) ⟨hcounters, hruns⟩ hstep

end Machine

end Sys2Proof
end

section
/-! What reset leaves (R168), and what a held part takes. -/

namespace Sys2Proof.Machine

open Sys2Proof

/-- Settles O4: the commands left by the four hypotheses wait for a running part. -/
theorem heldPartTakesNoCommand : Obligations.HeldPartTakesNoCommand := by
  intro c s hr hreset hrelease himage hsent
  refine exec_held c s hr ?_
  cases c with
  | reset kind => exact absurd rfl (hreset kind)
  | resetRelease straps => exact absurd rfl (hrelease straps)
  | imageReadDone bytes => exact absurd rfl (himage bytes)
  | recordSent => exact absurd rfl hsent
  | _ => rfl

/-- Settles O6: RESET answers State.resetBy, whose fields are those of the reset condition but for the station index of a pin
reset, frame memory and the queue. -/
theorem resetPutsEveryBlockInItsResetCondition : Obligations.ResetPutsEveryBlockInItsResetCondition := by
  intro kind s
  refine ⟨s.resetBy kind, rfl, ⟨rfl, rfl, rfl, rfl, rfl⟩, ?_, ?_, ⟨?_, rfl, rfl⟩, rfl, rfl, ⟨?_, rfl, rfl, rfl, rfl, rfl⟩,
    ?_, rfl, rfl, rfl, rfl, ?_⟩
  · exact ⟨rfl, rfl, rfl, rfl, rfl, rfl, rfl, rfl, rfl⟩
  · exact ⟨rfl, rfl, rfl, rfl, rfl, rfl, rfl, rfl, rfl, rfl, rfl, rfl⟩
  · intro i hi
    exact List.getElem?_replicate_of_lt hi
  · intro i hi
    exact List.getElem?_replicate_of_lt hi
  · exact ⟨rfl, rfl, rfl, rfl, rfl, rfl⟩
  · cases kind <;> rfl

theorem reset_membershipLegal : State.reset.MembershipLegal := by decide

/-- No slot is FILLING, READY or SHOWN in the table's reset condition. -/
theorem resetTable_slot (i : Nat) : State.resetTable.slot i = State.freeSlot := by
  simp only [SlotTable.slot, State.resetTable, List.getElem?_replicate]
  split <;> rfl

theorem resetTable_consistent : State.resetTable.Consistent := by
  refine ⟨rfl, List.nodup_nil, by simp [State.resetTable], by simp [State.resetTable], ?_, ?_, ?_, ?_,
    Nat.zero_le _, fun _ => Nat.zero_le _⟩
  all_goals simp [resetTable_slot, State.freeSlot]
  all_goals simp [State.resetTable]

theorem reset_tableLegal : State.reset.TableLegal :=
  ⟨resetTable_consistent, ⟨List.Pairwise.nil, (by intro c hc; cases hc)⟩, fun h => absurd rfl h, fun _ => rfl⟩

theorem reset_inputLegal : State.reset.InputLegal := by
  refine ⟨(by intro h; cases h), fun _ => ⟨rfl, ?_⟩, fun _ => rfl⟩
  intro i hi
  cases hi

/-- Settles O59: each invariant at reset, where the part is held and every block in its reset condition. -/
theorem invariantsHoldAtReset : Obligations.InvariantsHoldAtReset := by
  have hranges := ranged_of_held (resetBy_held State.reset .powerOn) (resetBy_heldRanged State.reset .powerOn)
  exact ⟨hranges.1, hranges.2, reset_membershipLegal, reset_tableLegal, reset_inputLegal,
    ⟨fun _ => ⟨rfl, rfl, rfl⟩, rfl⟩, reset_canonical⟩

end Sys2Proof.Machine
end

section
/-! The pixel clock of an empty queue (R3), the commands of a running part, and the wrap (R6, R21). -/

namespace Sys2Proof.Machine

open Sys2Proof

/-! ## The pixel clock -/

theorem step_of_empty {s : State} (hp : s.pending = []) : step s = .next s.tick := by simp [step, hp]

theorem State.tick_begun {s : State} (hr : s.running = true) (h : s.tb.phase = .begun) : s.tick = s.takeSamples := by
  simp [State.tick, (s.running_iff).1 hr, h]

theorem State.tick_ended {s : State} (hr : s.running = true) (h : s.tb.phase = .ended) : s.tick = s.nextPixel := by
  simp [State.tick, (s.running_iff).1 hr, h]

@[simp] theorem State.beginPixel_tb (s : State) (ln px : Nat) :
    (s.beginPixel ln px).tb = s.tb.beginAt s.member.state ln px := by simp [State.beginPixel]

/-- The line start of lines 2 to FL is raised at the line's first pixel (R18). -/
theorem State.lineStart_mem_beginPixel (s : State) (ln : Nat) (h : 2 ≤ ln) :
    Instr.lineStart ln ∈ (s.beginPixel ln 1).pending := by
  simp [State.beginPixel, State.beginHappenings, State.lineHappenings, Timebase.beginAt, h]

/-- The three rows of R3's table. -/
theorem State.nextPixel_in_line {s : State} (h : s.tb.px < s.settings.ll) :
    s.nextPixel = s.clockReport.beginPixel s.tb.ln (s.tb.px + 1) := by simp [State.nextPixel, h]

theorem State.nextPixel_line_end {s : State} (hpx : s.tb.px = s.settings.ll) (hln : s.tb.ln < s.settings.fl) :
    s.nextPixel = s.clockReport.beginPixel (s.tb.ln + 1) 1 := by simp [State.nextPixel, hpx, hln]

theorem State.nextPixel_frame_end {s : State} (hpx : s.tb.px = s.settings.ll) (hln : s.tb.ln = s.settings.fl) :
    s.nextPixel = { s.clockReport with pending := s.clockReport.pending ++ [.frameStart] } := by
  simp [State.nextPixel, hpx, hln]

/-- Settles O2: the step is the third phase of the pixel clock, by R3's three rows. -/
theorem pixelClockAdvancesTheCounters : Obligations.PixelClockAdvancesTheCounters := by
  intro s hr hp hphase hln
  have hstep : step s = .next s.nextPixel := by rw [step_of_empty hp, State.tick_ended hr hphase]
  refine ⟨fun hpx => ⟨_, hstep, ?_⟩, fun hpx hfl => ⟨_, hstep, ?_⟩, fun hpx hfl => ⟨_, hstep, ?_⟩⟩
  · rw [State.nextPixel_in_line hpx]
    simp [Timebase.beginAt]
  · rw [State.nextPixel_line_end hpx hfl]
    have hraised := s.clockReport.lineStart_mem_beginPixel (s.tb.ln + 1) (by omega)
    simp [Timebase.beginAt, hraised]
  · rw [State.nextPixel_frame_end hpx hfl]
    simp

/-! ## The commands of a running part -/

/-- What a command of the running part answers. -/
theorem exec_of_running {c : Instr} {s u : State} (hr : s.running = true) (hx : exec c s = .next (s.whenRunning u)) :
    exec c s = .next u := by rw [hx, State.whenRunning_true s u hr]

theorem State.naturalFrameStart_of_wrapMet {s : State} (h : s.tb.wrapMet = true) :
    s.naturalFrameStart = { s with tb := { s.tb with wrapMet := false } } := by simp [State.naturalFrameStart, h]

theorem State.naturalFrameStart_eq {s : State} (h : s.tb.wrapMet = false) :
    s.naturalFrameStart = s.frameStart .natural s.tb.state := by simp [State.naturalFrameStart, h]

/-- A frame start that is not the first puts the counters at (1, 1), with one advance of AFN (R4, R8). -/
theorem State.frameStart_position (s : State) (cause : FrameCause) (ended : TimebaseState) (hc : cause ≠ .first) :
    (s.frameStart cause ended).tb.ln = 1 ∧ (s.frameStart cause ended).tb.px = 1 ∧
    (s.frameStart cause ended).tb.afn = s.tb.afn + 1 ∧ (s.frameStart cause ended).tb.openSlot = none ∧
    (s.frameStart cause ended).tb.openLine = none := by
  rw [s.frameStart_counters]
  simp [Timebase.frameStart, hc]

/-! ## The wrap (R6, R21) -/

/-- A move to where the counters stand changes nothing. -/
theorem State.moveTo_here (s : State) {ln px : Nat} (hln : s.tb.ln = ln) (hpx : s.tb.px = px) : s.moveTo ln px = s := by
  simp [State.moveTo, Timebase.moveTo, hln, hpx]

/-- An edge at the frame start that the Timebase has taken makes no second one (R21). -/
theorem State.edgeHere_at_frameStart (s : State) (hln : s.tb.ln = 1) (hpx : s.tb.px = 1) (hcl : 1 ≤ s.settings.cl) :
    s.edgeHere.tb.ln = 1 ∧ s.edgeHere.tb.px = 1 ∧ s.edgeHere.tb.afn = s.tb.afn := by
  unfold State.edgeHere
  repeat' split
  · simp [State.silenceEdge, State.trackOrder, hln, hpx]
  · simp [State.seekEdge, State.trackOrder, hln, hpx]
  · have hclass : s.mark.classify s.settings.cl s.catchZoneFlag 1 1 = .onTimeOwn := by
      simp [MarkAligner.classify, hcl]
    rw [hln, hpx]
    simp [State.trackingEdge, hclass, hln, hpx]

/-- Before the wrap an edge in SEEKING makes the frame start itself, and the wrap has no further effect (R6). -/
theorem State.edgeBeforeWrap_seeking_tb {s : State} (h : s.tb.state = .seeking) :
    s.edgeBeforeWrap.tb.ln = 1 ∧ s.edgeBeforeWrap.tb.px = 1 ∧ s.edgeBeforeWrap.tb.afn = s.tb.afn + 1 ∧
    s.edgeBeforeWrap.tb.wrapMet = true := by
  simp only [State.edgeBeforeWrap, h, if_true, State.postEvent_tb]
  exact ⟨(State.reload_counters _ _).1, (State.reload_counters _ _).2.1, (State.reload_counters _ _).2.2.1, trivial⟩

theorem State.edgeBeforeWrap_tracking_tb {s : State} (h : s.tb.state = .tracking) : s.edgeBeforeWrap.tb = s.tb := by
  simp [State.edgeBeforeWrap, h]

/-- Settles O20: after the frame start the edge leaves the counters alone; an edge before the wrap either takes the frame
start's place or leaves it to the wrap. -/
theorem oneFrameStartAtTheWrap : Obligations.OneFrameStartAtTheWrap := by
  intro s hr hwrap hcl
  constructor
  · obtain ⟨hln, hpx, hafn, -, -⟩ := s.frameStart_position .natural s.tb.state (by simp)
    have hrt : (s.frameStart .natural s.tb.state).running = true := by
      rw [State.running_congr (by simp : _ = s.loader)]; exact hr
    refine ⟨_, _, (exec_of_running hr rfl).trans (congrArg _ (State.naturalFrameStart_eq hwrap)),
      exec_of_running hrt rfl, ?_⟩
    simp only [State.takeEdge, State.edgeAt, State.moveTo_here _ hln hpx]
    have hedge := State.edgeHere_at_frameStart
      { s.frameStart .natural s.tb.state with
        mark := { (s.frameStart .natural s.tb.state).mark with level := .low } } hln hpx (by simpa using hcl)
    exact ⟨hedge.1, hedge.2.1, hedge.2.2.trans hafn⟩
  · have hrt : s.edgeBeforeWrap.running = true := by
      rw [State.running_congr (by simp : _ = s.loader)]; exact hr
    refine ⟨s.edgeBeforeWrap, s.edgeBeforeWrap.naturalFrameStart, exec_of_running hr rfl, exec_of_running hrt rfl, ?_⟩
    cases hstate : s.tb.state with
    | seeking =>
      obtain ⟨hln, hpx, hafn, hmet⟩ := State.edgeBeforeWrap_seeking_tb hstate
      rw [State.naturalFrameStart_of_wrapMet hmet]
      exact ⟨hln, hpx, hafn⟩
    | tracking =>
      have htb := State.edgeBeforeWrap_tracking_tb hstate
      rw [State.naturalFrameStart_eq (by rw [htb, hwrap])]
      obtain ⟨hln, hpx, hafn, -, -⟩ := s.edgeBeforeWrap.frameStart_position .natural s.edgeBeforeWrap.tb.state (by simp)
      exact ⟨hln, hpx, by rw [hafn, htb]⟩

end Sys2Proof.Machine
end

section
/-! The drives of the link lines (R22, R37, R42, R55, R57), the filter of MARK (R20), and the commands that end at them. -/

namespace Sys2Proof.Machine

open Sys2Proof

/-! ## Levels and permissions -/

theorem drivenLevel_eq_low_iff (drive : Bool) : drivenLevel drive = .low ↔ drive = true := by
  cases drive <;> simp [drivenLevel]

theorem Level.eq_high_iff (l : Level) : l = .high ↔ l ≠ .low := by cases l <;> simp

theorem MembershipState.mayDrive_iff (m : MembershipState) :
    m.mayDrive = true ↔ m = .joining ∨ m = .member ∨ m = .parked := by cases m <;> simp [MembershipState.mayDrive]

theorem State.mayDrive_iff (s : State) : s.mayDrive = true ↔
    s.tb.state = .tracking ∧ (s.member.state = .joining ∨ s.member.state = .member ∨ s.member.state = .parked) := by
  simp [State.mayDrive, MembershipState.mayDrive_iff]

/-- The pixel clocks at which MARK is driven low (R22). -/
theorem State.mark_low_iff (s : State) : s.pins.mark = .low ↔ s.running = true ∧ s.tb.ln = 1 ∧ s.tb.state = .tracking ∧
    (s.member.state = .joining ∨ s.member.state = .member ∨ s.member.state = .parked) := by
  simp [State.pins, drivenLevel_eq_low_iff, State.markDrive, State.mayDrive_iff, and_assoc]

/-! ## The filter of MARK (R20) -/

theorem MarkAligner.sample_first (m : MarkAligner) (l : Level) (h : m.samples.length ≤ 1) :
    m.sample l = ({ m with samples := m.samples ++ [l] }, .quiet) := by
  unfold MarkAligner.sample; dsimp only
  split
  · simp_all
  · simp_all
  · rfl

theorem MarkAligner.sample_second (m : MarkAligner) (l a b : Level) (h : m.samples = [a, b]) :
    m.sample l = ({ m with samples := [a, b, l],
                           level := if a = .low ∧ b = .low ∧ l = .low then .low else .high }, .quiet) := by
  unfold MarkAligner.sample; dsimp only
  rw [h]

theorem MarkAligner.sample_third (m : MarkAligner) (l a b c : Level) (h : m.samples = [a, b, c]) :
    m.sample l = ({ m with samples := [b, c, l] },
      if b = .low ∧ c = .low ∧ l = .low ∧ m.level = .high then .falling
      else if b = .high ∧ c = .high ∧ l = .high ∧ m.level = .low then .rising else .quiet) := by
  unfold MarkAligner.sample; dsimp only
  rw [h]; dsimp only
  repeat' split
  all_goals rfl

/-- What one sample of MARK raises. -/
theorem State.takeSamples_pending {s : State} (hp : s.pending = []) : s.takeSamples.pending =
    (s.mark.sample (s.lineLevel .mark s.markDrive)).2.commands s.tb.ln s.tb.px := by simp [State.takeSamples, hp]

/-- A line that the station pulls low is sampled low (R37). -/
theorem State.lineLevel_of_drive (s : State) (line : LinkLine) : s.lineLevel line true = .low := rfl

/-- The sample of MARK that a step takes, by how many the filter holds. -/
theorem takeSamples_filters (s : State) (hp : s.pending = []) : ∃ l : Level,
    (s.pins.mark = .low → l = .low) ∧
    s.takeSamples.mark =
      { s.mark with level := s.takeSamples.mark.level, samples := s.takeSamples.mark.samples } ∧
    (s.mark.samples.length ≤ 1 →
      s.takeSamples.mark.samples = s.mark.samples ++ [l] ∧ s.takeSamples.mark.level = s.mark.level ∧
      s.takeSamples.pending = []) ∧
    (∀ a b, s.mark.samples = [a, b] → s.takeSamples.mark.samples = [a, b, l] ∧ s.takeSamples.pending = [] ∧
      s.takeSamples.mark.level = if a = .low ∧ b = .low ∧ l = .low then .low else .high) ∧
    (∀ a b c, s.mark.samples = [a, b, c] → s.takeSamples.mark.samples = [b, c, l] ∧
      s.takeSamples.mark.level = s.mark.level ∧
      s.takeSamples.pending =
        if b = .low ∧ c = .low ∧ l = .low ∧ s.mark.level = .high then [.markEdge (.pixel s.tb.ln s.tb.px)]
        else if b = .high ∧ c = .high ∧ l = .high ∧ s.mark.level = .low then [.markRisingEdge]
        else []) := by
  have hmark : s.takeSamples.mark = (s.mark.sample (s.lineLevel .mark s.markDrive)).1 := rfl
  refine ⟨s.lineLevel .mark s.markDrive, fun hlow => ?_, s.mark.sample_kept _, fun hfew => ?_, fun a b hab => ?_,
    fun a b c habc => ?_⟩
  · have hdrive : s.markDrive = true := (drivenLevel_eq_low_iff _).1 hlow
    rw [hdrive, s.lineLevel_of_drive]
  · rw [State.takeSamples_pending hp, hmark, s.mark.sample_first _ hfew]
    exact ⟨rfl, rfl, rfl⟩
  · rw [State.takeSamples_pending hp, hmark, s.mark.sample_second _ a b hab]
    exact ⟨rfl, rfl, rfl⟩
  · rw [State.takeSamples_pending hp, hmark, s.mark.sample_third _ a b c habc]
    refine ⟨rfl, rfl, ?_⟩
    dsimp only
    repeat' split
    all_goals rfl

/-- Settles O15: the drive of MARK, the two moves to pixel 1 of a line, the rising edge, and the filter's sample. -/
theorem lineStartCatchZoneEntryAndRisingEdge : Obligations.LineStartCatchZoneEntryAndRisingEdge := by
  refine ⟨State.mark_low_iff, fun s hr hll => ⟨fun line hline hfl => ?_, fun hcz hfl => ?_, exec_of_running hr rfl,
    fun hp hphase => ?_⟩⟩
  · have hmove := s.moveTo_inside line 1 (by omega) hfl (by omega) hll
    have hop : s.lineStart line = { s.moveTo line 1 with transit := s.transit.sendRefresh } := by
      simp [State.lineStart, hline, hfl]
    refine ⟨s.lineStart line, exec_of_running hr rfl, ?_, ?_, ?_⟩
    · rw [hop]; rfl
    · rw [hop]; exact hmove
    · rw [Level.eq_high_iff, Ne, State.mark_low_iff, hop]
      have hln : (s.moveTo line 1).tb.ln = line := by rw [hmove]
      rintro ⟨-, hone, -⟩
      exact absurd (hln.symm.trans hone) (by omega)
  · exact ⟨s.catchZoneEntry, exec_of_running hr rfl, rfl, s.moveTo_inside s.settings.cz 1 hcz hfl (by omega) hll⟩
  · obtain ⟨l, hsample⟩ := takeSamples_filters s hp
    exact ⟨s.takeSamples, l, by rw [step_of_empty hp, State.tick_begun hr hphase], hsample⟩

/-! ## The drive of TALK (R37, R41, R42) -/

/-- The low cells of a character: the start cell, the data cells of its 0 bits, and the lead cell of all but the first (R41). -/
theorem characterCell_low_iff (first : Bool) (byte : Byte) (cell : Nat) : characterCell first byte cell = .low ↔
    cell = 0 ∨ (∃ bit < 8, cell = 1 + bit ∧ byte.getLsbD bit = false) ∨ cell = 9 ∧ first = false := by
  unfold characterCell
  split
  · simp [*]
  · split
    · have hlow : (∃ bit < 8, cell = 1 + bit ∧ byte.getLsbD bit = false) ↔ byte.getLsbD (cell - 1) = false := by
        constructor
        · rintro ⟨bit, -, rfl, hbit⟩; simpa using hbit
        · intro hbit; exact ⟨cell - 1, by omega, by omega, hbit⟩
      rw [hlow]
      have hnine : cell ≠ 9 := by omega
      simp [*]
    · have hdata : ¬∃ bit < 8, cell = 1 + bit ∧ byte.getLsbD bit = false := by rintro ⟨bit, hbit, rfl, -⟩; omega
      split
      · simp only [hdata]; simp [*]
      · simp [*]

/-- Character `c` takes cells 2 + 11c to 12 + 11c (R42). -/
theorem messageCell_eq (message : List Byte) (c cell : Nat) (hcell : cell < 11) (byte : Byte)
    (hbyte : message[c]? = some byte) :
    messageCell message (2 + 11 * c + cell) = characterCell (decide (c = 0)) byte cell := by
  have hdiv : (2 + 11 * c + cell - 2) / 11 = c := by omega
  have hmod : (2 + 11 * c + cell - 2) % 11 = cell := by omega
  have hlate : ¬2 + 11 * c + cell < 2 := by omega
  unfold messageCell
  rw [if_neg hlate, hdiv, hmod, hbyte]

theorem messageCell_low_iff (message : List Byte) (k : Nat) : messageCell message k = .low ↔
    ∃ (c : Nat) (byte : Byte), message[c]? = some byte ∧
      (k = 2 + 11 * c ∨ (∃ bit < 8, k = 3 + 11 * c + bit ∧ byte.getLsbD bit = false) ∨ k = 11 + 11 * c ∧ c ≠ 0) := by
  constructor
  · intro hlow
    by_cases hk : k < 2
    · simp [messageCell, hk] at hlow
    · obtain ⟨c, cell, hcell, rfl⟩ : ∃ c cell, cell < 11 ∧ k = 2 + 11 * c + cell :=
        ⟨(k - 2) / 11, (k - 2) % 11, by omega, by omega⟩
      cases hbyte : message[c]? with
      | none =>
        have hdiv : (2 + 11 * c + cell - 2) / 11 = c := by omega
        simp [messageCell, hk, hdiv, hbyte] at hlow
      | some byte =>
        rw [messageCell_eq message c cell hcell byte hbyte, characterCell_low_iff] at hlow
        refine ⟨c, byte, hbyte, ?_⟩
        rcases hlow with rfl | ⟨bit, hbit, rfl, hzero⟩ | ⟨rfl, hfirst⟩
        · exact Or.inl rfl
        · exact Or.inr (Or.inl ⟨bit, hbit, by omega, hzero⟩)
        · exact Or.inr (Or.inr ⟨by omega, by simpa using hfirst⟩)
  · rintro ⟨c, byte, hbyte, hk⟩
    have hread (cell : Nat) (hcell : cell < 11) := messageCell_eq message c cell hcell byte hbyte
    rcases hk with rfl | ⟨bit, hbit, rfl, hzero⟩ | ⟨rfl, hc⟩
    · exact (hread 0 (by omega)).trans ((characterCell_low_iff _ _ _).2 (Or.inl rfl))
    · rw [show 3 + 11 * c + bit = 2 + 11 * c + (1 + bit) by omega, hread (1 + bit) (by omega), characterCell_low_iff]
      exact Or.inr (Or.inl ⟨bit, hbit, rfl, hzero⟩)
    · rw [show 11 + 11 * c = 2 + 11 * c + 9 by omega, hread 9 (by omega), characterCell_low_iff]
      exact Or.inr (Or.inr ⟨rfl, by simpa using hc⟩)

/-- The lines of talk slot `i` (R15). -/
theorem slotOfLine_eq_some_iff (c : Settings) (ln i : Nat) : c.slotOfLine ln = some i ↔
    i < c.n ∧ c.slotFirstLine i ≤ ln ∧ ln < c.slotFirstLine i + c.sl := by
  unfold Settings.slotOfLine Settings.slotFirstLine
  rcases Nat.eq_zero_or_pos c.sl with hsl | hsl
  · simp [hsl]; omega
  by_cases hin : c.tw ≤ ln ∧ ln < c.tw + c.n * c.sl
  · rw [if_pos hin, Option.some.injEq, Nat.div_eq_iff hsl]
    have hnext : (i + 1) * c.sl = i * c.sl + c.sl := by ring
    constructor
    · rintro ⟨hlow, hhigh⟩
      have hi : i < c.n := by
        by_contra hge
        have := Nat.mul_le_mul_right c.sl (Nat.le_of_not_lt hge)
        omega
      omega
    · rintro ⟨-, hlow, hhigh⟩
      omega
  · rw [if_neg hin]
    refine ⟨fun h => by simp at h, ?_⟩
    rintro ⟨hi, hlow, hhigh⟩
    have hlast := Nat.mul_le_mul_right c.sl (Nat.succ_le_of_lt hi)
    have hnext : i.succ * c.sl = i * c.sl + c.sl := Nat.succ_mul _ _
    exact absurd ⟨by omega, by omega⟩ hin

/-- The pixels at which TALK is driven low (R15, R37, R42). -/
theorem State.talk_low_iff (s : State) (first cell : Nat) (hfirst : first = s.settings.tw + s.own * s.settings.sl)
    (hcell : cell = ((s.tb.ln - first) * s.settings.ll + s.tb.px - 1) / s.settings.cl) :
    s.pins.talk = .low ↔ s.running = true ∧ s.link.tx = .sending ∧ s.tb.state = .tracking ∧
      s.own < s.settings.n ∧ first ≤ s.tb.ln ∧ s.tb.ln < first + s.settings.sl ∧
      cell < s.settings.sl * s.settings.ll / s.settings.cl ∧
      ∃ message, s.link.snapshot = some message ∧ messageCell message cell = .low := by
  have hslot := slotOfLine_eq_some_iff s.settings s.tb.ln s.own
  have hline : s.settings.slotFirstLine s.own = first := hfirst.symm
  rw [hline] at hslot
  have hread : s.settings.cellOf (s.settings.slotPosition s.own s.tb.ln s.tb.px) =
      (cell, (s.settings.slotPosition s.own s.tb.ln s.tb.px - 1) % s.settings.cl + 1) := by
    simp only [Settings.cellOf, Settings.slotPosition, hline, hcell]
  simp only [State.pins, drivenLevel_eq_low_iff]
  constructor
  · intro hdrive
    unfold State.talkDrive at hdrive
    split at hdrive
    · rename_i i k pixel message htalk hmessage
      simp only [decide_eq_true_eq] at hdrive
      obtain ⟨htx, htracking, rfl, hlow⟩ := hdrive
      unfold State.talkCellAt at htalk
      split at htalk
      · rename_i j hj
        dsimp only at htalk
        split at htalk
        · rename_i hin
          simp only [Option.some.injEq, Prod.mk.injEq] at htalk
          obtain ⟨rfl, rfl, -⟩ := htalk
          rw [hread] at hin hlow
          obtain ⟨hn, hge, hlt⟩ := hslot.1 hj
          exact ⟨hin.1, htx, htracking, hn, hge, hlt, hin.2, message, hmessage, hlow⟩
        · cases htalk
      · cases htalk
    · cases hdrive
  · rintro ⟨hr, htx, htracking, hn, hge, hlt, hcap, message, hmessage, hlow⟩
    have htalk : s.talkCellAt =
        some (s.own, cell, (s.settings.slotPosition s.own s.tb.ln s.tb.px - 1) % s.settings.cl + 1) := by
      unfold State.talkCellAt
      rw [hslot.2 ⟨hn, hge, hlt⟩]
      dsimp only
      rw [hread, if_pos ⟨hr, hcap⟩]
    unfold State.talkDrive
    rw [htalk, hmessage]
    simp [htx, htracking, hlow]

/-- Everything of the Timebase but the position, the phase, the wrap mark and the states of R34 is kept by a move to an end. -/
theorem State.moveToEnd_tb (s : State) (ln px : Nat) : (s.moveToEnd ln px).tb = { s.tb with
    ln := (s.moveToEnd ln px).tb.ln, px := (s.moveToEnd ln px).tb.px, phase := (s.moveToEnd ln px).tb.phase,
    wrapMet := (s.moveToEnd ln px).tb.wrapMet, stateBefore := (s.moveToEnd ln px).tb.stateBefore,
    stateAtEnd := (s.moveToEnd ln px).tb.stateAtEnd } := by
  simp only [State.moveToEnd, Timebase.moveToEnd, Timebase.moveTo, Timebase.beginAt, Timebase.endAt]
  repeat' split
  all_goals rfl

/-- Settles O23: the end of the transmission, the drive of TALK, and the low cells of a message. -/
theorem announceSentEndsTheTransmission : Obligations.AnnounceSentEndsTheTransmission := by
  refine ⟨fun s hr htx => ?_, State.talk_low_iff, messageCell_low_iff⟩
  have hop : s.announceSent = { s.moveInSlot s.own s.sentPosition with link := { s.link with tx := .sent } } := by
    simp [State.announceSent, htx]
  refine ⟨s.announceSent, exec_of_running hr rfl, ?_, ?_, ?_⟩
  · rw [hop]; rfl
  · rw [hop]; exact s.moveToEnd_tb _ _
  · rw [Level.eq_high_iff, Ne, State.talk_low_iff _ _ _ rfl rfl, hop]
    rintro ⟨-, hsending, -⟩
    cases hsending

/-! ## The drive of VOTE (R37, R55, R57) -/

theorem State.own_lt (s : State) : s.own < 16 := s.loader.index.isLt

/-- The pixels of a roll-call cell (R16). -/
theorem cellOf_eq_iff (c : Settings) (px k : Nat) (hpx : 1 ≤ px) (hcl : 1 ≤ c.cl) :
    (c.cellOf px).1 = k ↔ k * c.cl + 1 ≤ px ∧ px ≤ (k + 1) * c.cl := by
  have hnext : (k + 1) * c.cl = k * c.cl + c.cl := by ring
  simp only [Settings.cellOf, Nat.div_eq_iff (show 0 < c.cl from hcl)]
  omega

theorem State.claimDrive_iff (s : State) (hpx : 1 ≤ s.tb.px) (hcl : 1 ≤ s.settings.cl) :
    s.claimDrive = true ↔ s.running = true ∧ s.tb.ln = s.settings.vl ∧ s.own * s.settings.cl + 1 ≤ s.tb.px ∧
      s.tb.px ≤ (s.own + 1) * s.settings.cl ∧ s.link.claimDriven = true ∧ s.tb.state = .tracking ∧
      s.member.state = .member ∧ s.member.withdrawal = none := by
  have hcell := cellOf_eq_iff s.settings s.tb.px s.own hpx hcl
  have hown := s.own_lt
  unfold State.claimDrive State.rollCallCellAt State.claimPermitted
  by_cases hin : s.running = true ∧ s.tb.ln = s.settings.vl ∧ (s.settings.cellOf s.tb.px).1 < Config.stations
  · obtain ⟨hr, hln, hlt⟩ := hin
    simp [hr, hln, hlt, hcell, and_assoc]
  · simp only [if_neg hin]
    refine ⟨(fun h => by cases h), ?_⟩
    rintro ⟨hr, hln, hlow, hhigh, -⟩
    exact absurd ⟨hr, hln, by rw [hcell.2 ⟨hlow, hhigh⟩]; exact hown⟩ hin

theorem State.verdictDrive_iff (s : State) : s.verdictDrive = true ↔ s.running = true ∧ s.tb.ln = s.settings.vl + 1 ∧
    s.tb.px ≤ s.settings.cl ∧ s.tb.state = .tracking ∧ s.link.latched = .veto ∧ s.link.claimDriven = true := by
  unfold State.verdictDrive State.verdictCellAt
  split
  · rename_i hin
    simp [hin]
  · rename_i hin
    simp only [Option.isSome_none, Bool.false_and, Bool.false_eq_true, false_iff]
    rintro ⟨hr, hln, hpx, -⟩
    exact hin ⟨hr, hln, hpx⟩

/-- The pixels at which VOTE is driven low (R16, R37, R55, R57). -/
theorem State.vote_low_iff (s : State) (hpx : 1 ≤ s.tb.px) (hcl : 1 ≤ s.settings.cl) :
    s.pins.vote = .low ↔ s.running = true ∧ s.tb.state = .tracking ∧ s.link.claimDriven = true ∧
      (s.tb.ln = s.settings.vl ∧ s.own * s.settings.cl + 1 ≤ s.tb.px ∧ s.tb.px ≤ (s.own + 1) * s.settings.cl ∧
          s.member.state = .member ∧ s.member.withdrawal = none ∨
        s.tb.ln = s.settings.vl + 1 ∧ s.tb.px ≤ s.settings.cl ∧ s.link.latched = .veto) := by
  simp only [State.pins, drivenLevel_eq_low_iff, State.voteDrive, Bool.or_eq_true, s.claimDrive_iff hpx hcl,
    s.verdictDrive_iff]
  tauto

/-- ROLL_CALL_CELL where the claim is permitted, and where it is not (R55). -/
theorem State.rollCallCell_permitted {s : State}
    (h : s.tb.state = .tracking ∧ s.member.state = .member ∧ s.member.withdrawal = none) :
    s.rollCallCell = { s.moveTo s.settings.vl (s.own * s.settings.cl + 1) with
      link := { s.link with claimDriven := true, claimOwed := false } } := by
  simp [State.rollCallCell, h]

theorem State.rollCallCell_forbidden {s : State}
    (h : ¬(s.tb.state = .tracking ∧ s.member.state = .member ∧ s.member.withdrawal = none)) :
    s.rollCallCell = s.moveTo s.settings.vl (s.own * s.settings.cl + 1) := by
  simp [State.rollCallCell, h]

theorem rollCallCell_drives (s : State) (hr : s.running = true) (hvl : 1 ≤ s.settings.vl)
    (hfl : s.settings.vl + 1 ≤ s.settings.fl) (hcl : 1 ≤ s.settings.cl) (hll : 16 * s.settings.cl ≤ s.settings.ll) :
    s.rollCallCell = { s with
      tb := s.rollCallCell.tb
      link := { s.link with claimDriven := s.rollCallCell.link.claimDriven, claimOwed := s.rollCallCell.link.claimOwed } } ∧
    s.rollCallCell.tb = { s.tb with
      ln := s.settings.vl, px := s.own * s.settings.cl + 1, phase := s.rollCallCell.tb.phase,
      wrapMet := s.rollCallCell.tb.wrapMet, stateBefore := s.rollCallCell.tb.stateBefore } ∧
    (s.tb.state = .tracking ∧ s.member.state = .member ∧ s.member.withdrawal = none →
      s.rollCallCell.link.claimDriven = true ∧ s.rollCallCell.link.claimOwed = false ∧
      s.rollCallCell.pins.vote = .low) ∧
    (¬(s.tb.state = .tracking ∧ s.member.state = .member ∧ s.member.withdrawal = none) →
      s.rollCallCell.link.claimDriven = s.link.claimDriven ∧ s.rollCallCell.link.claimOwed = s.link.claimOwed ∧
      s.rollCallCell.pins.vote = .high) := by
  have hpx : s.own * s.settings.cl + 1 ≤ s.settings.ll := by
    have := Nat.mul_le_mul_right s.settings.cl (Nat.le_of_lt_succ s.own_lt)
    omega
  have hmove := s.moveTo_inside s.settings.vl (s.own * s.settings.cl + 1) hvl (by omega) (by omega) hpx
  have hin := s.moveTo_px s.settings.vl (s.own * s.settings.cl + 1) hvl (by omega) (by omega) hpx
  have hln := s.moveTo_ln s.settings.vl (s.own * s.settings.cl + 1) hvl (by omega) (by omega) hpx
  have hone : 1 ≤ (s.moveTo s.settings.vl (s.own * s.settings.cl + 1)).tb.px := by omega
  have hnext : (s.own + 1) * s.settings.cl = s.own * s.settings.cl + s.settings.cl := by ring
  have hlast : (s.moveTo s.settings.vl (s.own * s.settings.cl + 1)).tb.px ≤ (s.own + 1) * s.settings.cl := by omega
  by_cases h : s.tb.state = .tracking ∧ s.member.state = .member ∧ s.member.withdrawal = none
  · rw [State.rollCallCell_permitted h]
    obtain ⟨htracking, hmember, hwithdrawal⟩ := h
    refine ⟨rfl, hmove, fun _ => ⟨rfl, rfl, ?_⟩, fun hn => absurd ⟨htracking, hmember, hwithdrawal⟩ hn⟩
    refine (State.vote_low_iff _ ?_ ?_).2 ?_
    · exact hone
    · exact hcl
    exact ⟨hr, (s.moveTo_kept _ _).1.trans htracking, rfl,
      Or.inl ⟨hln, hin.ge, hlast, hmember, hwithdrawal⟩⟩
  · rw [State.rollCallCell_forbidden h]
    refine ⟨rfl, hmove, fun hp => absurd hp h, fun _ => ⟨rfl, rfl, ?_⟩⟩
    rw [Level.eq_high_iff]
    intro hlow
    obtain ⟨-, htracking, -, ⟨-, -, -, hmember, hwithdrawal⟩ | ⟨hline, -⟩⟩ := (State.vote_low_iff _ hone hcl).1 hlow
    · exact h ⟨by simpa using htracking, hmember, hwithdrawal⟩
    · exact absurd (hln.symm.trans hline) (by simp)

/-- Settles O26: the drive of VOTE, and the states that ROLL_CALL_CELL and VERDICT_LATCH leave. -/
theorem claimAndVetoAreDrivenAsPermitted : Obligations.ClaimAndVetoAreDrivenAsPermitted := by
  refine ⟨State.vote_low_iff, fun s hr hvl hfl hcl hll => ⟨⟨s.rollCallCell, exec_of_running hr rfl,
    rollCallCell_drives s hr hvl hfl hcl hll⟩, s.verdictLatch, exec_of_running hr rfl, rfl, ?_, ?_⟩⟩
  · exact s.moveTo_inside _ _ (by omega) hfl (by omega) (by omega)
  · have hin := s.moveTo_px (s.settings.vl + 1) 1 (by omega) hfl (by omega) (by omega)
    have hln := s.moveTo_ln (s.settings.vl + 1) 1 (by omega) hfl (by omega) (by omega)
    have hlatch : s.verdictLatch.tb.ln = s.settings.vl + 1 ∧ s.verdictLatch.tb.px = 1 := ⟨hln, hin⟩
    have hstate : s.verdictLatch.tb.state = s.tb.state := (s.moveTo_kept _ _).1
    refine (State.vote_low_iff _ hlatch.2.ge hcl).trans ?_
    rw [hlatch.1, hlatch.2, hstate]
    constructor
    · rintro ⟨-, htracking, hclaim, ⟨hline, -⟩ | ⟨-, -, hveto⟩⟩
      · exact absurd hline (by simp)
      · exact ⟨htracking, hveto, hclaim⟩
    · rintro ⟨htracking, hveto, hclaim⟩
      exact ⟨hr, htracking, hclaim, Or.inr ⟨rfl, hcl, hveto⟩⟩

end Sys2Proof.Machine
end

section
/-! The panel: the window, the colour of a pixel (R163, R164), the panel pins (R156, R165), and a column that falls due
(R155, R162). -/

namespace Sys2Proof.Machine

open Sys2Proof

/-! ## The window (R14) -/

theorem imageOfLine_eq_some_iff (c : Settings) (ln j : Nat) : c.imageOfLine ln = some j ↔
    j < c.wh ∧ ln = c.va0 + c.wy + j := by
  unfold Settings.imageOfLine Settings.imageLn
  split
  · rw [Option.some.injEq]; omega
  · simp only [reduceCtorEq, false_iff]; omega

theorem columnOfPx_eq_some_iff (c : Settings) (px p : Nat) : c.columnOfPx px = some p ↔
    p < c.ww ∧ px = c.ha0 + c.wx + p := by
  unfold Settings.columnOfPx Settings.columnPx
  split
  · rw [Option.some.injEq]; omega
  · simp only [reduceCtorEq, false_iff]; omega

theorem State.windowAt_eq_some_iff (s : State) (j p : Nat) : s.windowAt = some (j, p) ↔
    s.running = true ∧ (j < s.settings.wh ∧ s.tb.ln = s.settings.va0 + s.settings.wy + j) ∧
      p < s.settings.ww ∧ s.tb.px = s.settings.ha0 + s.settings.wx + p := by
  rw [← imageOfLine_eq_some_iff, ← columnOfPx_eq_some_iff]
  unfold State.windowAt
  split
  · rename_i hr
    cases s.settings.imageOfLine s.tb.ln <;> cases s.settings.columnOfPx s.tb.px <;> simp [hr]
  · simp [*]

/-! ## Flags and panel pins (R12, R13, R156, R165) -/

theorem State.inLines_iff {s : State} (hr : s.running = true) (first last : Nat) :
    s.inLines first last = true ↔ first ≤ s.tb.ln ∧ s.tb.ln ≤ last := by simp [State.inLines, hr]

theorem State.inPixels_iff {s : State} (hr : s.running = true) (first last : Nat) :
    s.inPixels first last = true ↔ first ≤ s.tb.px ∧ s.tb.px ≤ last := by simp [State.inPixels, hr]

theorem State.activeFlag_iff {s : State} (hr : s.running = true) : s.activeFlag = true ↔
    s.settings.va0 ≤ s.tb.ln ∧ s.tb.ln ≤ s.settings.va1 ∧ s.settings.ha0 ≤ s.tb.px ∧ s.tb.px ≤ s.settings.ha1 := by
  simp [State.activeFlag, State.inLines_iff hr, State.inPixels_iff hr, and_assoc]

theorem State.panelPin_held {s : State} (hr : s.running = false) (activeHigh asserted : Bool) :
    s.panelPin activeHigh asserted = .low := by simp [State.panelPin, hr]

theorem State.panelPin_high_iff {s : State} (hr : s.running = true) (activeHigh asserted : Bool) :
    s.panelPin activeHigh asserted = .high ↔ (activeHigh = true ↔ asserted = true) := by
  cases activeHigh <;> cases asserted <;> simp [State.panelPin, hr]

/-! ## The colour of a pixel (R163) -/

theorem State.pdat_held {s : State} (hr : s.running = false) : s.pdat = 0 := by
  simp [State.pdat, State.activeFlag, State.inLines, hr]

theorem State.pdat_inactive {s : State} (h : ¬s.activeFlag = true) : s.pdat = 0 := by simp [State.pdat, h]

theorem State.pdat_border {s : State} (ha : s.activeFlag = true) (hw : ∀ j p, s.windowAt ≠ some (j, p)) :
    s.pdat = s.settings.border := by
  have hnone : s.windowAt = none := Option.eq_none_iff_forall_not_mem.2 fun w hm => hw w.1 w.2 hm
  simp [State.pdat, ha, hnone]

theorem State.pdat_window {s : State} {j p : Nat} (ha : s.activeFlag = true) (hw : s.windowAt = some (j, p)) :
    s.pdat = s.windowColour j p := by simp [State.pdat, ha, hw]

/-- The window lies in the active area of settings that fit (R14, R172). -/
theorem State.window_active {s : State} {j p : Nat} (hfits : s.settings.Fits) (hw : s.windowAt = some (j, p)) :
    s.activeFlag = true := by
  obtain ⟨hr, ⟨hj, hln⟩, hp, hpx⟩ := (s.windowAt_eq_some_iff j p).1 hw
  unfold Settings.Fits at hfits
  rw [State.activeFlag_iff hr]
  omega

theorem State.windowColour_unlatched {s : State} (h : s.out.latched = none) (j p : Nat) :
    s.windowColour j p = s.settings.fill := by simp [State.windowColour, h]

theorem State.windowColour_unshown {s : State} {j p : Nat} (h : (s.out.place j).shows j p = none) :
    s.windowColour j p = s.settings.fill := by
  unfold State.windowColour; rw [h]
  split
  · rename_i hshows; cases hshows
  · rfl

theorem State.windowColour_underrun {s : State} {j count p : Nat} {bytes : List Byte}
    (h : s.out.place j = .holds j count .underrun bytes) : s.windowColour j p = s.settings.fill :=
  State.windowColour_unshown (by simp [LinePlace.shows, h])

theorem State.windowColour_stored {s : State} {j p slot count : Nat} {mark : PlaceMark} {bytes : List Byte}
    (hlatched : s.out.latched = some slot) (hplace : s.out.place j = .holds j count mark bytes) (hmark : mark ≠ .underrun)
    (hresident : (3 * p + 2) / 64 < count) : s.windowColour j p = storedColour s.settings bytes p := by
  have hshows : (s.out.place j).shows j p = some bytes := by
    simp [LinePlace.shows, hplace, hmark, columnResident, hresident]
  simp [State.windowColour, hlatched, hshows]

/-- Settles O40: the held part's pins, the three rows of the pixel table, and each panel pin by its flag. -/
theorem pixelColourFollowsTheTable : Obligations.PixelColourFollowsTheTable := by
  refine ⟨fun s hr => ⟨State.pdat_held hr, State.panelPin_held hr _ _, State.panelPin_held hr _ _,
    State.panelPin_held hr _ _, State.panelPin_held hr _ _, by simp [State.pins, State.readyPin, hr]⟩,
    fun s hr hfits => ⟨fun hout => ?_, fun hactive hno => ?_, fun j p hj hp hln hpx => ?_, ?_, ?_, ?_, ?_⟩⟩
  · exact State.pdat_inactive fun ha => hout ((State.activeFlag_iff hr).1 ha)
  · refine State.pdat_border ((State.activeFlag_iff hr).2 hactive) fun j p hw => hno ?_
    obtain ⟨-, ⟨hj, hln⟩, hp, hpx⟩ := (s.windowAt_eq_some_iff j p).1 hw
    exact ⟨j, p, hj, hp, hln, hpx⟩
  · have hw : s.windowAt = some (j, p) := (s.windowAt_eq_some_iff j p).2 ⟨hr, ⟨hj, hln⟩, hp, hpx⟩
    have hpdat : s.pins.pdat = s.windowColour j p := State.pdat_window (State.window_active hfits hw) hw
    rw [hpdat]
    refine ⟨fun hnone => State.windowColour_unlatched hnone j p, fun count bytes h => State.windowColour_underrun h,
      fun slot count mark bytes r g b hslot hplace hmark hcount hred hgreen hblue => ?_⟩
    rw [State.windowColour_stored hslot hplace hmark hcount]
    simp only [storedColour, hred, hgreen, hblue, Option.getD_some, clampColour, clampComponent]
  · exact (State.panelPin_high_iff hr _ _).trans (by rw [State.activeFlag_iff hr])
  · exact (State.panelPin_high_iff hr _ _).trans (by rw [State.hsFlag, State.inPixels_iff hr])
  · exact (State.panelPin_high_iff hr _ _).trans (by rw [State.vsFlag, State.inLines_iff hr])
  · exact (State.panelPin_high_iff hr _ _).trans (by simp)

/-! ## A column that falls due (R155, R162) -/

theorem OutputPipe.place_eq_holds_iff (o : OutputPipe) (j line count : Nat) (mark : PlaceMark) (bytes : List Byte) :
    o.place j = .holds line count mark bytes ↔ o.places[j % 3]? = some (.holds line count mark bytes) := by
  unfold OutputPipe.place
  cases o.places[j % 3]? <;> simp

theorem OutputPipe.activeCount_eq_some_iff (o : OutputPipe) (j count : Nat) : o.activeCount j = some count ↔
    ∃ bytes, o.places[j % 3]? = some (.holds j count .active bytes) := by
  simp only [← o.place_eq_holds_iff]
  unfold OutputPipe.activeCount
  split
  · rename_i line held bytes hplace
    rw [hplace]
    simp only [LinePlace.holds.injEq, true_and, exists_and_left]
    split <;> simp_all
  · rename_i hplace
    simp only [reduceCtorEq, false_iff, not_exists]
    exact fun bytes h => hplace _ _ _ h

theorem OutputPipe.underrunsAt_iff (o : OutputPipe) (j p : Nat) : o.underrunsAt j p = true ↔
    o.latched ≠ none ∧ ∃ count bytes, o.places[j % 3]? = some (.holds j count .active bytes) ∧
      count ≤ (3 * p + 2) / 64 := by
  have hactive := o.activeCount_eq_some_iff j
  unfold OutputPipe.underrunsAt
  rw [Bool.and_eq_true, Option.isSome_iff_ne_none]
  refine and_congr_right fun _ => ?_
  split
  · rename_i held hheld
    obtain ⟨bytes, hbytes⟩ := (hactive held).1 hheld
    simp only [columnResident, Bool.not_eq_true', decide_eq_false_iff_not, Nat.not_lt]
    constructor
    · intro hlate; exact ⟨held, bytes, hbytes, hlate⟩
    · rintro ⟨count, other, hother, hlate⟩
      rw [hbytes] at hother
      simp only [Option.some.injEq, LinePlace.holds.injEq] at hother
      omega
  · rename_i hnone
    simp only [Bool.false_eq_true, false_iff, not_exists]
    rintro count bytes ⟨hbytes, -⟩
    have := (hactive count).2 ⟨bytes, hbytes⟩
    rw [hnone] at this
    cases this

theorem State.dueColumn_resident {s : State} {j p : Nat} (h : ¬s.out.underrunsAt j p = true) : s.dueColumn j p = s := by
  simp [State.dueColumn, h]

theorem State.dueColumn_underrun {s : State} {j p : Nat} (h : s.out.underrunsAt j p = true) :
    s.dueColumn j p = ({ s with
      out := { s.out.setMark j .underrun with underruns := s.out.underruns + 1 }
      transit := s.transit.sendReader [.withdraw j] } : State).settleUrgent := by
  simp [State.dueColumn, h]

/-- The mark of a line that its place holds. -/
theorem OutputPipe.setMark_places {o : OutputPipe} {j count : Nat} {old : PlaceMark} {bytes : List Byte}
    (h : o.places[j % 3]? = some (.holds j count old bytes)) (mark : PlaceMark) :
    (o.setMark j mark).places = o.places.set (j % 3) (.holds j count mark bytes) := by
  apply List.ext_getElem?
  intro k
  simp only [OutputPipe.setMark, List.getElem?_modify, List.getElem?_set]
  obtain ⟨hlt, hheld⟩ := List.getElem?_eq_some_iff.1 h
  by_cases hk : j % 3 = k
  · subst hk; simp [hlt, hheld, LinePlace.mark]
  · simp [hk]

/-- Both commands put the counters at the column's pixel, with the line open, and the column is due there. -/
theorem column_falls_due {s : State} {c : Instr} {line p : Nat} (hr : s.running = true) (hfits : s.settings.Fits)
    (hline : line < s.settings.wh) (hp : p < s.settings.ww)
    (hc : c = .imageLineStart line ∧ p = 0 ∨ c = .underrun line p ∧ s.tb.openLine = some line) :
    ∃ tb : Timebase, exec c s = .next (({ s with tb := tb } : State).dueColumn line p) ∧
      tb = { s.tb with ln := s.settings.va0 + s.settings.wy + line, px := s.settings.ha0 + s.settings.wx + p,
                       openLine := some line, phase := tb.phase, wrapMet := tb.wrapMet, stateBefore := tb.stateBefore } := by
  have hmove : (s.moveTo (s.settings.imageLn line) (s.settings.columnPx p)).tb = _ :=
    s.moveTo_inside (s.settings.imageLn line) (s.settings.columnPx p)
      (by unfold Settings.imageLn; unfold Settings.Fits at hfits; omega)
      (by unfold Settings.imageLn; unfold Settings.Fits at hfits; omega)
      (by unfold Settings.columnPx; unfold Settings.Fits at hfits; omega)
      (by unfold Settings.columnPx; unfold Settings.Fits at hfits; omega)
  rcases hc with ⟨rfl, rfl⟩ | ⟨rfl, hopen⟩
  · refine ⟨{ (s.moveTo (s.settings.imageLn line) (s.settings.columnPx 0)).tb with openLine := some line },
      exec_of_running hr ?_, ?_⟩
    · simp [exec, execImageLineStart, State.imageLineStart, hline]
    · rw [hmove]; rfl
  · refine ⟨(s.moveTo (s.settings.imageLn line) (s.settings.columnPx p)).tb, exec_of_running hr ?_, ?_⟩
    · simp [exec, execUnderrun, State.columnDue, hopen, hp]
      rfl
    · rw [← hopen]; exact hmove

/-- Settles O37: the column is due at its pixel, and it is resident or underruns its line. -/
theorem windowColumnShowsOrUnderruns : Obligations.WindowColumnShowsOrUnderruns := by
  intro s c line p hr hfits hplaces hline hp hc
  obtain ⟨tb, hexec, htb⟩ := column_falls_due hr hfits hline hp hc
  have hiff := s.out.underrunsAt_iff line p
  by_cases hlate : s.out.underrunsAt line p = true
  · rw [State.dueColumn_underrun (s := { s with tb := tb }) hlate] at hexec
    refine ⟨_, hexec, rfl, htb, fun count bytes _ hheld _ => ?_, fun hno => absurd (hiff.1 hlate) hno⟩
    have hmarked := OutputPipe.setMark_places hheld .underrun
    refine ⟨hmarked, rfl, rfl, ?_⟩
    have hw : (({ s with
        tb := tb
        out := { s.out.setMark line .underrun with underruns := s.out.underruns + 1 }
        transit := s.transit.sendReader [.withdraw line] } : State).settleUrgent).windowAt = some (line, p) := by
      rw [State.windowAt_eq_some_iff, State.settleUrgent_settings, State.settleUrgent_tb]
      exact ⟨hr, ⟨hline, by rw [htb]⟩, hp, by rw [htb]⟩
    have hactive := State.window_active ((State.settleUrgent_settings _).symm ▸ hfits) hw
    refine (State.pdat_window hactive hw).trans (State.windowColour_underrun (count := count)
      (bytes := bytes) ?_)
    rw [OutputPipe.place_eq_holds_iff]
    have hlt : line % 3 < s.out.places.length := by omega
    exact (congrArg (·[line % 3]?) hmarked).trans (by simp [hlt])
  · rw [State.dueColumn_resident (s := { s with tb := tb }) hlate] at hexec
    exact ⟨_, hexec, rfl, htb, fun count bytes hlatched hheld hcount =>
      absurd (hiff.2 ⟨hlatched, count, bytes, hheld, hcount⟩) hlate, fun _ => ⟨rfl, rfl⟩⟩

end Sys2Proof.Machine
end

section
/-! What a frame start leaves in each block, of any cause (R4, R26, R34, R35, R64, R77, R101, R157), the natural frame start
(R4), and the frame start of cause FIRST of an accepted image (R5, R174). -/

namespace Sys2Proof.Machine

open Sys2Proof

/-! ## The parts that a frame start and an edge leave alone -/

theorem State.eq_of_kept {s t : State} (h : t.settings = s.settings ∧ t.table = s.table ∧ t.input = s.input ∧
    t.port = s.port ∧ t.ram = s.ram ∧ t.loader = s.loader ∧ t.free = s.free ∧ t.pending = s.pending) :
    t = { s with tb := t.tb, mark := t.mark, link := t.link, roster := t.roster, consent := t.consent,
                 member := t.member, out := t.out, report := t.report, transit := t.transit } := by
  obtain ⟨hsettings, htable, hinput, hport, hram, hloader, hfree, hpending⟩ := h
  simp [State.ext_iff, hsettings, htable, hinput, hport, hram, hloader, hfree, hpending]

/-! ## The account of the Mark Aligner (R26, R34, R35) -/

theorem MarkAligner.closeFrame_missRun (m : MarkAligner) {cause : FrameCause} (ended : TimebaseState)
    (hc : cause ≠ .first) : (m.closeFrame cause ended).missRun =
      if m.began = .tracking ∧ ended = .tracking then if m.onTime = true then 0 else min (m.missRun + 1) 255
      else m.missRun := by
  simp [MarkAligner.closeFrame, MarkAligner.countsMiss, hc, satSucc, Config.missRunMax]

/-- The miss run that a frame start hands brings a JOINING station to LISTEN (R34, R101 step 3). -/
theorem MarkAligner.handedMissRun_reaches_iff (m : MarkAligner) (cause : FrameCause) (ended : TimebaseState) :
    (∃ run, m.handedMissRun cause ended = some run ∧ 4 ≤ run) ↔
      cause ≠ .first ∧ m.began = .tracking ∧ ended = .tracking ∧ m.onTime = false ∧ 3 ≤ m.missRun := by
  unfold MarkAligner.handedMissRun
  have hcounts : m.countsMiss cause ended = true ↔ cause ≠ .first ∧ m.began = .tracking ∧ ended = .tracking := by
    simp [MarkAligner.countsMiss]
  split
  · rename_i hcounted
    obtain ⟨hc, hbegan, hended⟩ := hcounts.1 hcounted
    simp only [Option.some.injEq, exists_eq_left', m.closeFrame_missRun ended hc, hc, hbegan, ne_eq,
      not_false_eq_true, true_and]
    rw [if_pos hended]
    simp only [hended, true_and]
    cases m.onTime <;> simp
  · rename_i hcounted
    simp only [reduceCtorEq, false_and, exists_false, false_iff]
    exact fun h => hcounted (hcounts.2 ⟨h.1, h.2.1, h.2.2.1⟩)

theorem MarkAligner.missReached_iff (m : MarkAligner) (cause : FrameCause) (ended : TimebaseState) :
    m.missReached cause ended = true ↔
      cause ≠ .first ∧ m.began = .tracking ∧ ended = .tracking ∧ m.onTime = false ∧ m.missRun = 3 := by
  simp [MarkAligner.missReached, MarkAligner.countsMiss, Config.markMissLimit, and_assoc]

/-- A frame start of another cause than FIRST takes the waiting role (R35). -/
theorem MarkAligner.openFrame_pendingRole (m : MarkAligner) {cause : FrameCause} (state : TimebaseState)
    (hc : cause ≠ .first) : (m.openFrame cause state).pendingRole = none := by
  cases cause <;> cases hrole : m.pendingRole <;> cases hedge : m.edgeBeforeWrap <;>
    simp_all [MarkAligner.openFrame, MarkAligner.creditOwn]

theorem MarkAligner.openFrame_of_role {m : MarkAligner} {cause : FrameCause} {role : PendingRole} (state : TimebaseState)
    (hc : cause ≠ .first) (hrole : m.pendingRole = some role) :
    (m.openFrame cause state).frameRole = role.frameRole ∧ (m.openFrame cause state).onTime = true := by
  have hne : role.frameRole ≠ .none := by cases role <;> simp [PendingRole.frameRole]
  cases cause <;> cases hedge : m.edgeBeforeWrap <;>
    simp_all [MarkAligner.openFrame, MarkAligner.creditOwn]

theorem MarkAligner.openFrame_of_no_role {m : MarkAligner} {cause : FrameCause} (state : TimebaseState)
    (hrole : m.pendingRole = none) :
    (m.openFrame cause state).frameRole = (if m.edgeBeforeWrap = true then .lead else .none) ∧
    (m.openFrame cause state).onTime = m.edgeBeforeWrap := by
  cases cause <;> cases hedge : m.edgeBeforeWrap <;>
    simp [MarkAligner.openFrame, MarkAligner.creditOwn, hrole, hedge]

/-- A frame in SEEKING counts one silent frame more; the second reaches the seek silence (R26). -/
theorem MarkAligner.silenceReached_iff (m : MarkAligner) (cause : FrameCause) (ended : TimebaseState) :
    m.silenceReached cause ended = true ↔
      (cause = .natural ∧ m.began = .seeking ∧ ended = .seeking) ∧ 1 ≤ m.silenceCount := by
  simp [MarkAligner.silenceReached, MarkAligner.countsSilence, Config.seekSilence]

theorem MarkAligner.closeFrame_silenceCount (m : MarkAligner) (cause : FrameCause) (ended : TimebaseState) :
    (m.closeFrame cause ended).silenceCount =
      if cause = .natural ∧ m.began = .seeking ∧ ended = .seeking then min (m.silenceCount + 1) 2
      else m.silenceCount := by
  simp [MarkAligner.closeFrame, MarkAligner.countsSilence, satSucc, Config.seekSilence]

/-- What the close of the ended frame leaves as it was (R34). -/
@[simp] theorem MarkAligner.closeFrame_kept (m : MarkAligner) (cause : FrameCause) (ended : TimebaseState) :
    (m.closeFrame cause ended).pendingRole = m.pendingRole ∧
    (m.closeFrame cause ended).edgeBeforeWrap = m.edgeBeforeWrap ∧
    (m.closeFrame cause ended).strayCount = m.strayCount ∧ (m.closeFrame cause ended).lastCapture = m.lastCapture ∧
    (m.closeFrame cause ended).level = m.level := ⟨rfl, rfl, rfl, rfl, rfl⟩

/-! ## A frame start in each block -/

/-- Seek silence does not bring the station to LISTEN: the frame that it ends hands no miss run (R26, R34). -/
theorem State.entersListen_markFrameStart_iff (s : State) (cause : FrameCause) (ended : TimebaseState) :
    (s.markFrameStart cause ended).entersListen (s.mark.handedMissRun cause ended) ↔
      s.entersListen (s.mark.handedMissRun cause ended) := by
  unfold State.entersListen
  rw [State.markFrameStart_member, MarkAligner.handedMissRun_reaches_iff]
  by_cases hreached : s.mark.silenceReached cause ended = true
  · have hseeking := (s.mark.silenceReached_natural cause ended hreached).2.1
    rw [if_pos hreached]
    unfold Membership.startJoining
    split
    · rename_i hlisten; simp [hlisten, hseeking]
    · exact Iff.rfl
  · rw [if_neg hreached]

theorem State.entersListen_iff (s : State) (cause : FrameCause) (ended : TimebaseState) (hc : cause ≠ .first) :
    s.entersListen (s.mark.handedMissRun cause ended) ↔
      s.member.state = .joining ∧ s.mark.began = .tracking ∧ ended = .tracking ∧ s.mark.onTime = false ∧
          3 ≤ s.mark.missRun ∨
        s.member.state = .parked ∧ s.member.rejoin = true ∨ s.member.state = .resting ∧ s.member.rest ≤ 1 := by
  unfold State.entersListen
  rw [MarkAligner.handedMissRun_reaches_iff]
  simp only [ne_eq, hc, not_false_eq_true, true_and]
  tauto

@[simp] theorem State.frameStart_report (s : State) (cause : FrameCause) (ended : TimebaseState) :
    (s.frameStart cause ended).report = (s.markFrameStart cause ended).report := by simp [State.frameStart]

/-- The Link Interface and the Consent Unit open the frame, whatever the Membership Controller does (R40, R77). -/
theorem State.frameStart_link_consent (s : State) (cause : FrameCause) (ended : TimebaseState) :
    (s.frameStart cause ended).link = s.link.frameStart ∧
    (s.frameStart cause ended).consent = s.consent.frameStart := by
  simp only [State.frameStart, State.latchFrame_frame]
  rw [State.memberFrameStart_link _ _ _ _ (by simp [LinkInterface.frameStart]),
    State.memberFrameStart_consent _ _ _ _ (by simp [ConsentUnit.frameStart])]
  simp

/-- The Mark Aligner, the Timebase, the roster and the Membership Controller at a frame start that does not bring the station
to LISTEN (R34, R35, R101, R102). -/
theorem State.frameStart_stay (s : State) (cause : FrameCause) (ended : TimebaseState) (hc : cause ≠ .first)
    (h : ¬s.entersListen (s.mark.handedMissRun cause ended)) :
    (s.frameStart cause ended).tb.state = (s.markFrameStart cause ended).tb.state ∧
    (s.frameStart cause ended).mark = (s.markFrameStart cause ended).mark ∧
    (s.frameStart cause ended).roster = s.roster.frameStart s.settings.n cause ended ∧
    (s.frameStart cause ended).member.state = (s.markFrameStart cause ended).member.state ∧
    (s.frameStart cause ended).member.verdictLevel = none ∧
    (s.frameStart cause ended).member.inputSilence =
      min ((s.markFrameStart cause ended).member.inputSilence + 1) 255 ∧
    (s.frameStart cause ended).member.emptyRun =
      if (s.markFrameStart cause ended).member.state = .joining ∧ s.roster.results.isSome = false then 0
      else (s.markFrameStart cause ended).member.emptyRun := by
  obtain ⟨w, -, hstay⟩ := State.memberFrameStart_stay _ cause _ s.roster.results.isSome hc
    ((s.entersListen_markFrameStart_iff cause ended).not.2 h)
  simp only [State.frameStart, State.latchFrame_frame]
  rw [hstay]
  simp

/-- The same blocks at a frame start that brings the station to LISTEN (R24, R66, R99). -/
theorem State.frameStart_listen (s : State) (cause : FrameCause) (ended : TimebaseState) (hc : cause ≠ .first)
    (h : s.entersListen (s.mark.handedMissRun cause ended)) :
    (s.frameStart cause ended).tb.state = .seeking ∧
    (s.frameStart cause ended).mark = (s.markFrameStart cause ended).mark.seekOrder ∧
    (s.frameStart cause ended).roster = State.resetRoster ∧
    (s.frameStart cause ended).member = { (s.markFrameStart cause ended).member.enterListen with
      verdictLevel := none
      inputSilence := min ((s.markFrameStart cause ended).member.inputSilence + 1) 255 } := by
  obtain ⟨htb, hmark, hmember, hroster, -⟩ :=
    s.frameStart_enter cause ended hc ((s.entersListen_markFrameStart_iff cause ended).2 h)
  exact ⟨htb, hmark, hroster, hmember⟩

/-- What every frame start leaves of the Mark Aligner's account (R27). -/
theorem State.markFrameStart_mark_kept (s : State) (cause : FrameCause) (ended : TimebaseState) :
    (s.markFrameStart cause ended).mark.catchArmed = false ∧
    (s.markFrameStart cause ended).mark.strayCount = s.mark.strayCount ∧
    (s.markFrameStart cause ended).mark.lastCapture = s.mark.lastCapture ∧
    (s.markFrameStart cause ended).mark.level = s.mark.level := by
  rw [State.markFrameStart_mark]
  split <;> simp [MarkAligner.trackBySilence]

/-- The miss run and the role of a frame start, which tracking by silence leaves alone (R26, R34, R35). -/
theorem State.markFrameStart_mark_account (s : State) (cause : FrameCause) (ended : TimebaseState) :
    (s.markFrameStart cause ended).mark.missRun = (s.mark.closeFrame cause ended).missRun ∧
    (s.markFrameStart cause ended).mark.pendingRole =
      ((s.mark.closeFrame cause ended).openFrame cause s.tb.state).pendingRole ∧
    (s.markFrameStart cause ended).mark.frameRole =
      ((s.mark.closeFrame cause ended).openFrame cause s.tb.state).frameRole ∧
    (s.markFrameStart cause ended).mark.onTime =
      ((s.mark.closeFrame cause ended).openFrame cause s.tb.state).onTime := by
  rw [State.markFrameStart_mark]
  split <;> simp [MarkAligner.trackBySilence]

theorem State.frameStart_mark_kept (s : State) (cause : FrameCause) (ended : TimebaseState) (hc : cause ≠ .first) :
    (s.frameStart cause ended).mark.catchArmed = false ∧
    (s.frameStart cause ended).mark.strayCount = s.mark.strayCount ∧
    (s.frameStart cause ended).mark.lastCapture = s.mark.lastCapture ∧
    (s.frameStart cause ended).mark.level = s.mark.level := by
  by_cases h : s.entersListen (s.mark.handedMissRun cause ended)
  · rw [(s.frameStart_listen cause ended hc h).2.1]
    exact s.markFrameStart_mark_kept cause ended
  · rw [(s.frameStart_stay cause ended hc h).2.1]
    exact s.markFrameStart_mark_kept cause ended

/-- No roll call and no results yet (R64, R66). -/
theorem State.frameStart_roster_open (s : State) (cause : FrameCause) (ended : TimebaseState) (hc : cause ≠ .first) :
    (s.frameStart cause ended).roster.r = [] ∧ (s.frameStart cause ended).roster.results = none := by
  by_cases h : s.entersListen (s.mark.handedMissRun cause ended)
  · rw [(s.frameStart_listen cause ended hc h).2.2.1]
    exact ⟨rfl, rfl⟩
  · rw [(s.frameStart_stay cause ended hc h).2.2.1]
    exact ⟨rfl, rfl⟩

theorem Membership.startJoining_kept (m : Membership) :
    m.startJoining.inputSilence = m.inputSilence ∧ m.startJoining.rejoin = m.rejoin ∧ m.startJoining.rest = m.rest := by
  unfold Membership.startJoining; split <;> simp

/-- The verdict level and the input-silence count, whether or not the station enters LISTEN (R101, R102). -/
theorem State.frameStart_member_counts (s : State) (cause : FrameCause) (ended : TimebaseState) (hc : cause ≠ .first) :
    (s.frameStart cause ended).member.verdictLevel = none ∧
    (s.frameStart cause ended).member.inputSilence = min (s.member.inputSilence + 1) 255 := by
  have hsilence : (s.markFrameStart cause ended).member.inputSilence = s.member.inputSilence := by
    rw [State.markFrameStart_member]
    split
    · exact s.member.startJoining_kept.1
    · rfl
  by_cases h : s.entersListen (s.mark.handedMissRun cause ended)
  · rw [(s.frameStart_listen cause ended hc h).2.2.2]
    simp [hsilence]
  · obtain ⟨-, -, -, -, hlevel, hcount, -⟩ := s.frameStart_stay cause ended hc h
    exact ⟨hlevel, hcount.trans (by rw [hsilence])⟩

/-- The Output Pipe latches what it finds when every other block has opened the frame (R157, R158). -/
theorem State.frameStart_pipe (s : State) (cause : FrameCause) (ended : TimebaseState) :
    ∃ x : State, s.frameStart cause ended = x.latchFrame ∧ x.settings = s.settings ∧ x.table = s.table ∧ x.out = s.out ∧
      x.transit = s.transit.sendRefresh ∧ (x.member.state = .member ↔ s.member.state = .member) := by
  refine ⟨_, rfl, by simp, by simp, by simp, by simp, ?_⟩
  rw [State.memberFrameStart_member, State.markFrameStart_member]
  split
  · unfold Membership.startJoining; split <;> simp_all
  · rfl

/-! ## The natural frame start -/

/-- The Mark Aligner's account, and what the Membership Controller keeps, for a station that does not enter LISTEN
(R26, R34, R35, R101). -/
theorem State.naturalFrameStart_account (s : State)
    (h : ¬s.entersListen (s.mark.handedMissRun .natural s.tb.state)) (t : State)
    (ht : t = s.frameStart .natural s.tb.state) :
    t.mark.began = t.tb.state ∧
    (s.mark.began = .tracking ∧ s.tb.state = .tracking →
      t.mark.missRun = if s.mark.onTime = true then 0 else min (s.mark.missRun + 1) 255) ∧
    (¬(s.mark.began = .tracking ∧ s.tb.state = .tracking) → t.mark.missRun = s.mark.missRun) ∧
    t.mark.pendingRole = none ∧
    (∀ role, s.mark.pendingRole = some role → t.mark.frameRole = role.frameRole ∧ t.mark.onTime = true) ∧
    (s.mark.pendingRole = none →
      t.mark.frameRole = (if s.mark.edgeBeforeWrap = true then .lead else .none) ∧
      t.mark.onTime = s.mark.edgeBeforeWrap) ∧
    (s.mark.began = .seeking → s.tb.state = .seeking → s.mark.silenceCount = 0 →
      t.mark.silenceCount = 1 ∧ t.tb.state = .seeking ∧ t.member.state = s.member.state ∧ t.report = s.report) ∧
    (¬(s.mark.began = .seeking ∧ s.tb.state = .seeking) →
      t.mark.silenceCount = s.mark.silenceCount ∧ t.tb.state = s.tb.state ∧ t.member.state = s.member.state) ∧
    (s.member.state = .joining →
      t.member.emptyRun = if s.roster.results = none then 0 else s.member.emptyRun) := by
  obtain ⟨htb, hmark, -, hstate, -, -, hempty⟩ := s.frameStart_stay .natural s.tb.state (by simp) h
  have hreport := s.frameStart_report .natural s.tb.state
  have haccount := s.markFrameStart_mark_account .natural s.tb.state
  rw [← ht] at htb hmark hstate hempty hreport
  rw [← hmark] at haccount
  obtain ⟨hmiss, hpending, hrole, htime⟩ := haccount
  rw [MarkAligner.closeFrame_missRun _ _ (by simp)] at hmiss
  have hquiet : ¬s.mark.silenceReached .natural s.tb.state = true →
      t.mark.silenceCount = (s.mark.closeFrame .natural s.tb.state).silenceCount ∧ t.tb.state = s.tb.state ∧
      t.member.state = s.member.state ∧ t.mark.began = s.tb.state := by
    intro hnot
    rw [htb, hmark, hstate, State.markFrameStart_tb, State.markFrameStart_mark, State.markFrameStart_member, if_neg hnot,
      if_neg hnot, if_neg hnot]
    simp
  refine ⟨?_, fun hboth => hmiss.trans (if_pos hboth), fun hnot => hmiss.trans (if_neg hnot),
    hpending.trans (MarkAligner.openFrame_pendingRole _ _ (by simp)), fun role hwaits => ?_, fun hnone => ?_,
    fun hbegan hseeking hcount => ?_, fun hnot => ?_, fun hjoining => ?_⟩
  · by_cases hreached : s.mark.silenceReached .natural s.tb.state = true
    · rw [htb, hmark, State.markFrameStart_tb, State.markFrameStart_mark, if_pos hreached, if_pos hreached]
      rfl
    · rw [(hquiet hreached).2.2.2, (hquiet hreached).2.1]
  · obtain ⟨hopened, hcredited⟩ := MarkAligner.openFrame_of_role (m := s.mark.closeFrame .natural s.tb.state)
      (cause := .natural) s.tb.state (by simp) hwaits
    exact ⟨hrole.trans hopened, htime.trans hcredited⟩
  · obtain ⟨hopened, hcredited⟩ := MarkAligner.openFrame_of_no_role (m := s.mark.closeFrame .natural s.tb.state)
      (cause := .natural) s.tb.state hnone
    exact ⟨hrole.trans hopened, htime.trans hcredited⟩
  · have hnot : ¬s.mark.silenceReached .natural s.tb.state = true := by
      rw [MarkAligner.silenceReached_iff, hcount]; simp
    have hmissed : s.mark.missReached .natural s.tb.state = false := by
      rw [← Bool.not_eq_true, MarkAligner.missReached_iff, hbegan]; simp
    obtain ⟨hsilence, htbs, hmember, -⟩ := hquiet hnot
    refine ⟨?_, htbs.trans hseeking, hmember, ?_⟩
    · rw [hsilence, MarkAligner.closeFrame_silenceCount, hcount]; simp [hbegan, hseeking]
    · rw [hreport, (s.markFrameStart_report .natural s.tb.state).1 hmissed (Bool.not_eq_true _ ▸ hnot)]
  · obtain ⟨hsilence, htbs, hmember, -⟩ := hquiet fun hreached =>
      hnot ((s.mark.silenceReached_iff _ _).1 hreached).1.2
    exact ⟨hsilence.trans (by rw [MarkAligner.closeFrame_silenceCount, if_neg fun hall => hnot hall.2]), htbs, hmember⟩
  · have hsame : (s.markFrameStart .natural s.tb.state).member = s.member := by
      rw [State.markFrameStart_member]; unfold Membership.startJoining; simp [hjoining]
    rw [hempty, hsame]
    cases s.roster.results <;> simp [hjoining]

/-- Settles O11: each block's part of the natural frame start, the account apart. -/
theorem naturalFrameStartOpensTheFrame : Obligations.NaturalFrameStartOpensTheFrame := by
  intro s hr hwrap
  refine ⟨s.frameStart .natural s.tb.state, (exec_of_running hr rfl).trans (congrArg _ (State.naturalFrameStart_eq hwrap)),
    State.eq_of_kept (s.frameStart_frame _ _), s.frameStart_position _ _ (by simp), (s.frameStart_link_consent _ _).1,
    (s.frameStart_link_consent _ _).2, (s.frameStart_roster_open _ _ (by simp)).1,
    (s.frameStart_roster_open _ _ (by simp)).2, (s.frameStart_mark_kept _ _ (by simp)).1,
    (s.frameStart_mark_kept _ _ (by simp)).2.1, (s.frameStart_mark_kept _ _ (by simp)).2.2.1, ?_,
    (s.frameStart_member_counts _ _ (by simp)).1, (s.frameStart_member_counts _ _ (by simp)).2, ?_⟩
  · intro hparked hresting hjoining
    have hstays : ¬s.entersListen (s.mark.handedMissRun .natural s.tb.state) := by
      rw [State.entersListen_iff _ _ _ (by simp)]
      rintro (h | h | h)
      · exact hjoining h
      · exact hparked h
      · exact hresting h
    obtain ⟨hbegan, hmiss, hkept, hpending, hrole, hnone, hsilent, hother, hempty⟩ :=
      s.naturalFrameStart_account hstays _ rfl
    exact ⟨hbegan, hmiss, hkept, hpending, fun cut => hrole (.follow cut), fun cut => hrole (.jump cut),
      fun hp he => by simpa [he] using hnone hp, fun hp he => by simpa [he] using hnone hp, hsilent, hother, hempty⟩
  · obtain ⟨x, hx, hsettings, htable, hout, htransit, hmember⟩ := s.frameStart_pipe .natural s.tb.state
    obtain ⟨hlatched, hprevious, hflip, hrefreshes, hunderruns⟩ := x.latchFrame_latched
    obtain ⟨hline, hempty, hfull⟩ := x.latchFrame_store
    rw [hx]
    simp only [hout, hsettings, htable, htransit, hmember] at hlatched hprevious hflip hrefreshes hunderruns hempty hfull
    refine ⟨hprevious, hlatched, ?_, hline, hunderruns, hempty, hfull, hrefreshes⟩
    rw [hflip, hlatched, decide_eq_true_eq]

/-! ## The accepted image (R174) -/

theorem ReportPort.post_divisor (p : ReportPort) (b : ReportBody) : (p.post b).divisor = p.divisor := by
  unfold ReportPort.post; split <;> rfl

theorem ReportPort.postFaults_divisor (p : ReportPort) (attempt : Nat) (faults : List Nat) :
    (p.postFaults attempt faults).divisor = p.divisor := by
  induction faults generalizing p attempt with
  | nil => rfl
  | cons code rest ih => exact (ih _ _).trans (p.post_divisor _)

/-- The events of the failed attempts, in attempt order, while the queue has room for them (R173, R174, R177). -/
theorem ReportPort.postFaults_bodies (p : ReportPort) (attempt : Nat) (faults : List Nat)
    (h : p.queue.length + faults.length ≤ 4) :
    (p.postFaults attempt faults).queue.map QueuedRecord.body = p.queue.map QueuedRecord.body ++
      (faults.zipIdx attempt).map (fun f => ReportBody.event 0 (.configFault f.1 f.2)) := by
  induction faults generalizing p attempt with
  | nil => simp [ReportPort.postFaults]
  | cons code rest ih =>
    rw [List.length_cons] at h
    have hroom := p.post_room (.event 0 (.configFault code attempt)) (by omega)
    rw [ReportPort.postFaults, ih _ _ (by rw [hroom]; simp; omega), hroom]
    simp

/-- The frame start of cause FIRST closes no frame and takes no step of the Membership Controller (R5, R64, R97). -/
theorem State.frameStart_first (s : State) (ended : TimebaseState) :
    (s.frameStart .first ended).tb.state = s.tb.state ∧ (s.frameStart .first ended).tb.ln = 1 ∧
    (s.frameStart .first ended).tb.px = 1 ∧ (s.frameStart .first ended).tb.afn = s.tb.afn ∧
    (s.frameStart .first ended).member.state = s.member.state ∧
    (s.frameStart .first ended).roster = s.roster.frameStart s.settings.n .first ended ∧
    (s.frameStart .first ended).report = s.report ∧
    (s.frameStart .first ended).transit.refreshes = s.transit.refreshes + 1 := by
  have hsilence : s.mark.silenceReached .first ended = false := by
    simp [MarkAligner.silenceReached, MarkAligner.countsSilence]
  have hmiss : s.mark.missReached .first ended = false := by simp [MarkAligner.missReached, MarkAligner.countsMiss]
  obtain ⟨x, hx, -, -, -, htransit, -⟩ := s.frameStart_pipe .first ended
  have hrefreshes : (s.frameStart .first ended).transit.refreshes = s.transit.refreshes + 1 := by
    rw [hx, x.latchFrame_latched.2.2.2.1, htransit]; rfl
  have hcounters := s.frameStart_counters .first ended
  refine ⟨?_, ?_, ?_, ?_, ?_, ?_, ?_, hrefreshes⟩
  · simp [State.frameStart, State.memberFrameStart, State.markFrameStart_tb, hsilence]
  · rw [hcounters]; simp [Timebase.frameStart]
  · rw [hcounters]; simp [Timebase.frameStart]
  · rw [hcounters]; simp [Timebase.frameStart]
  · simp [State.frameStart, State.memberFrameStart, State.markFrameStart_member, hsilence]
  · simp [State.frameStart, State.memberFrameStart]
  · rw [State.frameStart_report, (s.markFrameStart_report .first ended).1 hmiss hsilence]

theorem resetRoster_frameStart_first (n : Nat) (ended : TimebaseState) :
    State.resetRoster.frameStart n .first ended = State.resetRoster := rfl

/-- An accepted image: the settings and the divisor are taken, the station enters LISTEN, and there the first frame starts
(R99, R174). -/
theorem State.accept_starts (s : State) (c : Settings) : ∃ x : State,
    (s.accept c = { x.frameStart .first .seeking with
      report := ((x.frameStart .first .seeking).report.postFaults 1 s.loader.faults).post
        (.event 0 (.started s.loader.index c.n)) }) ∧
    x.settings = c ∧ x.loader = { s.loader with phase := .accepted } ∧ x.tb = { s.tb with state := .seeking } ∧
    x.member.state = .listen ∧ x.roster = State.resetRoster ∧
    x.report = { s.report with divisor := c.reportDivisor } ∧ x.transit = s.transit ∧ x.table = s.table ∧
    x.input = s.input ∧ x.port = s.port ∧ x.ram = s.ram :=
  ⟨_, rfl, by simp, by simp, by simp, by simp [Membership.enterListen], by simp, by simp, by simp, by simp, by simp,
    by simp, by simp⟩

theorem State.readyPin_resetTable {s : State} (hr : s.running = true) (h : s.table = State.resetTable) :
    s.readyPin = .high := by
  have hroom : State.resetTable.hasRoom = true := by decide
  simp [State.readyPin, hr, h, hroom]

/-- Settles O10: the released station enters LISTEN, takes the frame start of cause FIRST, and posts the events. -/
theorem acceptedImageStartsTheStation : Obligations.AcceptedImageStartsTheStation := by
  intro bytes s hphase hclock hlength hcode hafn hqueue hfaults htable
  have hread : s.imageRead bytes =
      ({ s with loader := { s.loader with phase := .checking, image := bytes.map some } } : State).accept
        (settingsOf bytes) := by simp [State.imageRead, hphase, hclock, hlength, hcode]
  obtain ⟨x, haccept, hsettings, hloader, hxtb, hlisten, hempty, hxreport, htransit, hxtable, hinput, hport, hram⟩ :=
    State.accept_starts { s with loader := { s.loader with phase := .checking, image := bytes.map some } }
      (settingsOf bytes)
  obtain ⟨hstate, hln, hpx, hcount, hmember, hroster, hreport, hrefreshes⟩ := x.frameStart_first .seeking
  obtain ⟨hfsettings, hftable, hfinput, hfport, hfram, hfloader, -, -⟩ := x.frameStart_frame .first .seeking
  have hroom : x.report.queue.length + s.loader.faults.length ≤ 3 := by rw [hxreport]; simp [hqueue]; omega
  have hbodies := x.report.postFaults_bodies 1 s.loader.faults (by omega)
  have hposted : (x.report.postFaults 1 s.loader.faults).queue.length ≤ 3 := by
    have := congrArg List.length hbodies
    simp only [List.length_map, List.length_append, List.length_zipIdx] at this
    omega
  refine ⟨_, rfl, ?_⟩
  rw [hread, haccept]
  dsimp only
  refine ⟨?_, ?_, ?_, hln, hpx, ?_, ?_, ?_, ?_, ?_, ?_, ?_, ?_, ?_, ?_, ?_, ?_⟩
  · rw [hfloader, hloader]
  · rw [hfsettings, hsettings]
  · rw [hmember, hlisten]
  · rw [hcount, hxtb]; exact hafn
  · rw [hstate, hxtb]
  · rw [hroster, hempty]; exact resetRoster_frameStart_first _ _
  · rw [hreport, ReportPort.post_divisor, ReportPort.postFaults_divisor, hxreport]
  · rw [hreport, ReportPort.post_room _ _ (by omega), List.map_append, hbodies, hxreport]
    simp [hqueue]
  · rw [hrefreshes, htransit]
  · rw [hftable, hxtable]
  · rw [hfinput, hinput]
  · rw [hfport, hport]
  · rw [hfram, hram]
  · refine State.readyPin_resetTable ?_ ?_
    · rw [State.running_iff]; dsimp only; rw [hfloader, hloader]
    · dsimp only; rw [hftable, hxtable]; exact htable
  · show (x.frameStart .first .seeking).member.state.attn = .high
    rw [hmember, hlisten]
    rfl

end Sys2Proof.Machine
end

section
/-! What a reload can do in each block (R6, R7, R34, R35, R44, R53, R99, R161), and the falling edges of MARK that order one
(R25, R30, R31). -/

namespace Sys2Proof.Machine

open Sys2Proof

/-! ## Reload, block by block -/

/-- The Membership Controller as a reload finds it, after the track order that comes with it where one does (R10, R100). -/
def State.reloadMember (s : State) (track : Bool) : Membership := if track then s.member.startJoining else s.member

/-- The station enters LISTEN at the frame start of a reload (R34, R99, R101, R115). -/
def State.ReloadListens (s : State) (track : Bool) : Prop :=
  (s.reloadMember track).state = .joining ∧ s.mark.began = .tracking ∧ s.tb.state = .tracking ∧ s.mark.onTime = false ∧
      3 ≤ s.mark.missRun ∨
    (s.reloadMember track).state = .parked ∧ (s.reloadMember track).rejoin = true ∨
    (s.reloadMember track).state = .resting ∧ (s.reloadMember track).rest ≤ 1

/-- A reload is the frame start of a state in which the cut ends and the track order have been taken (R6, R7, R10). -/
theorem State.reload_eq (s : State) (track : Bool) : ∃ x : State, s.reload track = x.frameStart .reload s.tb.state ∧
    x.settings = s.settings ∧ x.mark = s.mark ∧ x.member = s.reloadMember track ∧
    x.tb.state = (if track then .tracking else s.tb.state) ∧ x.tb.afn = s.tb.afn ∧ x.tb.stateBefore = s.tb.stateBefore ∧
    x.report = s.report ∧ x.roster = s.cutSlot.roster ∧ x.transit = (s.cutSlot).cutImageLine.transit := by
  have htb := s.cutEnds_tb
  refine ⟨_, rfl, ?_⟩
  cases track
  · simp only [Bool.false_eq_true, if_false, State.reloadMember]
    rw [htb]; simp
  · simp only [if_true, State.reloadMember, State.trackOrder]
    rw [htb]; simp

theorem MarkAligner.silenceReached_reload (m : MarkAligner) (ended : TimebaseState) :
    m.silenceReached .reload ended = false := by simp [MarkAligner.silenceReached, MarkAligner.countsSilence]

theorem State.markFrameStart_reload (s : State) (ended : TimebaseState) :
    (s.markFrameStart .reload ended).member = s.member ∧ (s.markFrameStart .reload ended).tb.state = s.tb.state ∧
    (s.markFrameStart .reload ended).mark = (s.mark.closeFrame .reload ended).openFrame .reload s.tb.state := by
  rw [State.markFrameStart_member, State.markFrameStart_tb, State.markFrameStart_mark]
  simp [MarkAligner.silenceReached_reload]

theorem State.reload_position (s : State) (track : Bool) :
    (s.reload track).tb.ln = 1 ∧ (s.reload track).tb.px = 1 ∧ (s.reload track).tb.afn = s.tb.afn + 1 ∧
    (s.reload track).tb.openSlot = none ∧ (s.reload track).tb.openLine = none := by
  obtain ⟨x, hx, -, -, -, -, hafn, -⟩ := s.reload_eq track
  rw [hx, ← hafn]
  exact x.frameStart_position _ _ (by simp)

/-- A transmission ends with the frame that a reload cuts (R40, R44). -/
theorem State.reload_link (s : State) (track : Bool) : (s.reload track).link.tx = .idle := by
  obtain ⟨x, hx, -⟩ := s.reload_eq track
  rw [hx, (x.frameStart_link_consent _ _).1]
  rfl

theorem State.reload_mark_kept (s : State) (track : Bool) :
    (s.reload track).mark.catchArmed = false ∧ (s.reload track).mark.strayCount = s.mark.strayCount ∧
    (s.reload track).mark.lastCapture = s.mark.lastCapture ∧ (s.reload track).mark.level = s.mark.level := by
  obtain ⟨x, hx, -, hmark, -⟩ := s.reload_eq track
  rw [hx, ← hmark]
  exact x.frameStart_mark_kept _ _ (by simp)

/-- A reload for a station that does not enter LISTEN at it (R34, R35, R64). -/
theorem State.reload_stay (s : State) (track : Bool) (h : ¬s.ReloadListens track) :
    (s.reload track).tb.state = (if track then .tracking else s.tb.state) ∧
    (s.reload track).member.state = (s.reloadMember track).state ∧
    (s.reload track).mark =
      (s.mark.closeFrame .reload s.tb.state).openFrame .reload (if track then .tracking else s.tb.state) ∧
    (s.reload track).roster = s.cutSlot.roster.frameStart s.settings.n .reload s.tb.state := by
  obtain ⟨x, hx, hsettings, hmark, hmember, hstate, -, -, -, hroster, -⟩ := s.reload_eq track
  have hstays : ¬x.entersListen (x.mark.handedMissRun .reload s.tb.state) := by
    rw [State.entersListen_iff _ _ _ (by simp), hmark, hmember]
    exact h
  obtain ⟨htb, hmk, hro, hm, -⟩ := x.frameStart_stay .reload s.tb.state (by simp) hstays
  obtain ⟨hmember', htb', hmark'⟩ := x.markFrameStart_reload s.tb.state
  rw [hx, htb, hmk, hro, hm, hmember', htb', hmark', hstate, hmember, hmark, hroster, hsettings]
  exact ⟨rfl, rfl, rfl, rfl⟩

/-- A reload at which the station enters LISTEN (R24, R66, R99). -/
theorem State.reload_listen (s : State) (track : Bool) (h : s.ReloadListens track) :
    (s.reload track).tb.state = .seeking ∧ (s.reload track).roster = State.resetRoster ∧
    (∃ m : MarkAligner, (s.reload track).mark = m.seekOrder) ∧
    (s.reload track).member.state = .listen ∧ (s.reload track).member.rejoin = false ∧
    (s.reload track).member.rest = 0 ∧ (s.reload track).member.emptyRun = 0 := by
  obtain ⟨x, hx, -, hmark, hmember, -⟩ := s.reload_eq track
  have henters : x.entersListen (x.mark.handedMissRun .reload s.tb.state) := by
    rw [State.entersListen_iff _ _ _ (by simp), hmark, hmember]
    exact h
  obtain ⟨htb, hmk, hro, hm⟩ := x.frameStart_listen .reload s.tb.state (by simp) henters
  rw [hx, htb, hmk, hro, hm]
  exact ⟨rfl, rfl, ⟨_, rfl⟩, rfl, rfl, rfl, rfl⟩

/-- The role waits no longer, whether the frame takes it or the seek order clears it (R24, R35). -/
theorem State.reload_pendingRole (s : State) (track : Bool) : (s.reload track).mark.pendingRole = none := by
  by_cases h : s.ReloadListens track
  · obtain ⟨-, -, ⟨m, hm⟩, -⟩ := s.reload_listen track h
    rw [hm]
    rfl
  · rw [(s.reload_stay track h).2.2.1]
    exact MarkAligner.openFrame_pendingRole _ _ (by simp)

/-- The frame that begins takes the role of the edge (R35). -/
theorem State.reload_role {s : State} {track : Bool} {role : PendingRole} (h : ¬s.ReloadListens track)
    (hrole : s.mark.pendingRole = some role) :
    (s.reload track).mark.frameRole = role.frameRole ∧ (s.reload track).mark.onTime = true := by
  rw [(s.reload_stay track h).2.2.1]
  exact MarkAligner.openFrame_of_role _ (by simp) hrole

theorem State.reload_missRun {s : State} {track : Bool} (h : ¬s.ReloadListens track) :
    (s.reload track).mark.missRun =
      if s.mark.began = .tracking ∧ s.tb.state = .tracking then
        if s.mark.onTime = true then 0 else min (s.mark.missRun + 1) 255
      else s.mark.missRun := by
  rw [(s.reload_stay track h).2.2.1, (MarkAligner.openFrame_kept _ _ _).1,
    MarkAligner.closeFrame_missRun _ _ (by simp)]

/-- EVENT MARK_LOST where the miss run becomes 4 at the frame start of a reload, and no event otherwise (R34). -/
theorem State.reload_report (s : State) (track : Bool) :
    (s.mark.missReached .reload s.tb.state = false → (s.reload track).report = s.report) ∧
    (s.mark.missReached .reload s.tb.state = true →
      (s.reload track).report = s.report.post (.event (s.tb.afn + 1) (.markLost s.tb.stateBefore))) := by
  obtain ⟨x, hx, -, hmark, -, -, hafn, hbefore, hreport, -⟩ := s.reload_eq track
  have hsilence := x.mark.silenceReached_reload s.tb.state
  obtain ⟨hquiet, hlost, -⟩ := x.markFrameStart_report .reload s.tb.state
  rw [hx, State.frameStart_report, ← hmark, ← hreport, ← hafn, ← hbefore]
  exact ⟨fun h => hquiet h hsilence, fun h => (hlost h hsilence).trans (by simp [Timebase.frameStart])⟩

/-! ## What a reload cuts (R7, R53, R62, R161) -/

theorem State.placeTurn_prefix (s : State) : s.transit.readerItems <+: s.placeTurn.transit.readerItems := by
  unfold State.placeTurn
  (repeat' split) <;> simp [Transit.sendReader]

theorem State.latchFrame_prefix (s : State) : s.transit.readerItems <+: s.latchFrame.transit.readerItems := by
  unfold State.latchFrame
  rw [State.settleUrgent_transit]
  refine List.IsPrefix.trans ?_ ((State.placeTurn_prefix _).trans (State.placeTurn_prefix _))
  exact List.prefix_append _ _

/-- The withdrawal of an image line that a reload cuts goes to the Memory Port before what the frame start sends (R161). -/
theorem State.reload_withdraws {s : State} {j : Nat} (track : Bool) (h : s.tb.openLine = some j) :
    s.transit.readerItems ++ [.withdraw j] <+: (s.reload track).transit.readerItems := by
  have hopen : s.cutSlot.tb.openLine = some j := by
    rw [← h]; unfold State.cutSlot State.takeOutcome; (repeat' split) <;> rfl
  have hcut : s.transit.readerItems ++ [.withdraw j] <+: s.cutSlot.cutImageLine.transit.readerItems := by
    unfold State.cutImageLine
    rw [hopen]
    dsimp only
    unfold State.endImageLine
    rw [State.settleUrgent_transit]
    refine List.IsPrefix.trans ?_ (State.placeTurn_prefix _)
    simp [Transit.sendReader]
  obtain ⟨x, hx, -, -, -, -, -, -, -, -, htransit⟩ := s.reload_eq track
  obtain ⟨y, hy, -, -, -, hsent, -⟩ := x.frameStart_pipe .reload s.tb.state
  rw [hx, hy]
  refine List.IsPrefix.trans ?_ y.latchFrame_prefix
  rw [hsent, htransit]
  exact hcut

theorem missFirst_getElem?_settled {es : List RosterEntry} {i : Nat} {e : RosterEntry} (n : Nat)
    (he : es[i]? = some e) (hsettled : e.outcome ≠ .pending) : (missFirst n es)[i]? = some e := by
  induction es generalizing n i with
  | nil => cases he
  | cons first rest ih =>
    cases n with
    | zero => exact he
    | succ n =>
      cases i with
      | zero =>
        obtain rfl : first = e := by simpa using he
        simp [missFirst, RosterEntry.missIfPending, hsettled]
      | succ i => exact ih n he

/-- A slot whose outcome is settled keeps it as the previous outcome at the frame start (R64). -/
theorem Roster.frameStart_entry_settled {t : Roster} {i : Nat} {e : RosterEntry} (n : Nat) (cause : FrameCause)
    (ended : TimebaseState) (he : t.entries[i]? = some e) (hsettled : e.outcome ≠ .pending) :
    (t.frameStart n cause ended).entry i = e.nextFrame := by
  have hkept : (if cause = .first then t else t.missedSlots n ended).entries[i]? = some e := by
    unfold Roster.missedSlots
    (repeat' split)
    · exact he
    · exact missFirst_getElem?_settled n he hsettled
    · exact he
  simp [Roster.frameStart, Roster.entry, hkept]

theorem LinkInterface.cutOutcome_settled (l : LinkInterface) : l.cutOutcome ≠ .pending := by
  unfold LinkInterface.cutOutcome; split <;> simp

/-- The talk slot that a reload cuts is not heard, and its outcome becomes the previous one (R53, R62, R64). -/
theorem State.reload_cut_entry {s : State} {i : Nat} (track : Bool) (h : ¬s.ReloadListens track)
    (hstate : s.tb.state = .tracking) (hopen : s.tb.openSlot = some i) (hi : i < s.roster.entries.length) :
    (s.reload track).roster.entry i = ((s.roster.entry i).notHeard s.link.cutOutcome).nextFrame := by
  have hcut : s.cutSlot.roster = s.roster.takeNotHeard i s.link.cutOutcome := by
    simp [State.cutSlot, State.takeOutcome, hopen, hstate]
  rw [(s.reload_stay track h).2.2.2, hcut]
  refine Roster.frameStart_entry_settled _ _ _ ?_ s.link.cutOutcome_settled
  simp [Roster.takeNotHeard, Roster.entry, hi, RosterEntry.notHeard]

end Sys2Proof.Machine
end

section
/-! The falling edges of MARK that order a reload: followed in SEEKING (R25), catch (R30) and stray (R31). -/

namespace Sys2Proof.Machine

open Sys2Proof

/-! ## The edge and its reload -/

theorem cutLength_of_not_start {fl ln px : Nat} (h : ¬(ln = 1 ∧ px = 1)) : cutLength fl ln px = fl - ln + 1 := by
  simp [cutLength, h]

/-- An edge taken in SEEKING, but for the one at the frame start of seek silence (R25, R26). -/
theorem State.edgeAt_seek {s : State} {ln px : Nat} (hstate : s.tb.state = .seeking)
    (hsilence : ln = 1 ∧ px = 1 → s.mark.silenceHere = false) (h1 : 1 ≤ ln) (h2 : ln ≤ s.settings.fl) (h3 : 1 ≤ px)
    (h4 : px ≤ s.settings.ll) :
    s.edgeAt ln px = ({ s.moveTo ln px with mark := { s.mark with level := .low } } : State).seekEdge ln px := by
  have hln := s.moveTo_ln ln px h1 h2 h3 h4
  have hpx := s.moveTo_px ln px h1 h2 h3 h4
  have hnot : ¬(ln = 1 ∧ px = 1 ∧ s.mark.silenceHere = true) := by
    rintro ⟨hl, hp, hhere⟩
    rw [hsilence ⟨hl, hp⟩] at hhere
    cases hhere
  simp [State.edgeAt, State.edgeHere, hln, hpx, hnot, hstate]

/-- The membership state at the pixel clock before the edge's (R34). -/
theorem State.moveTo_stateBefore (s : State) (ln px : Nat) (h1 : 1 ≤ ln) (h2 : ln ≤ s.settings.fl) (h3 : 1 ≤ px)
    (h4 : px ≤ s.settings.ll) : (s.moveTo ln px).tb.stateBefore =
      if s.tb.ln = ln ∧ s.tb.px = px then s.tb.stateBefore
      else if s.tb.phase = .ended then s.tb.stateAtEnd else s.member.state := by
  simp only [State.moveTo, Timebase.moveTo, h1, h2, h3, h4, and_self, if_true]
  split <;> rfl

/-- A station in LISTEN or PARKED never joins by a frame that began in SEEKING (R34): an edge followed in SEEKING brings it
to LISTEN exactly on a rejoin request (R101, R115). -/
theorem State.reloadListens_seeking_iff {s : State} (hstate : s.tb.state = .seeking)
    (hmember : s.member.state = .listen ∨ s.member.state = .parked) :
    s.ReloadListens true ↔ s.member.state = .parked ∧ s.member.rejoin = true := by
  unfold State.ReloadListens State.reloadMember Membership.startJoining
  rcases hmember with hm | hm <;> simp [hm, hstate]

/-- In LISTEN the track order is the start of joining, and in PARKED it changes nothing (R100). -/
theorem Membership.startJoining_listen_or_parked {m : Membership} (h : m.state = .listen ∨ m.state = .parked) :
    m.startJoining = { m with
      state := if m.state = .listen then .joining else .parked
      emptyRun := if m.state = .listen then 0 else m.emptyRun } := by
  cases m with
  | mk state =>
    dsimp only at h
    rcases h with rfl | rfl <;> simp [Membership.startJoining]

theorem State.reloadMember_listen_or_parked {s : State} (hmember : s.member.state = .listen ∨ s.member.state = .parked) :
    (s.reloadMember true).state = if s.member.state = .listen then .joining else .parked :=
  congrArg Membership.state (Membership.startJoining_listen_or_parked hmember)

theorem MarkAligner.missReached_seeking (m : MarkAligner) (cause : FrameCause) : m.missReached cause .seeking = false := by
  rw [← Bool.not_eq_true, MarkAligner.missReached_iff]
  simp

/-- The silence count of a seek edge stays 0 through its reload (R25, R26). -/
theorem State.reload_silenceCount {s : State} (track : Bool) (h : s.mark.silenceCount = 0) :
    (s.reload track).mark.silenceCount = 0 := by
  by_cases hlisten : s.ReloadListens track
  · obtain ⟨-, -, ⟨m, hm⟩, -⟩ := s.reload_listen track hlisten
    rw [hm]
    rfl
  · rw [(s.reload_stay track hlisten).2.2.1, (MarkAligner.openFrame_kept _ _ _).2.1,
      MarkAligner.closeFrame_silenceCount]
    simpa using h

/-! ## An edge followed in SEEKING -/

/-- The reload of an edge followed in SEEKING, with `cut` the cut length of its role JUMP (R25, R33, R35, R99, R100, R115). -/
theorem State.reload_followed {s : State} {cut : Nat} (hstate : s.tb.state = .seeking)
    (hmember : s.member.state = .listen ∨ s.member.state = .parked) (hrole : s.mark.pendingRole = some (.jump cut)) :
    (¬(s.member.state = .parked ∧ s.member.rejoin = true) →
      (s.reload true).tb.state = .tracking ∧ (s.reload true).mark.frameRole = .jump cut ∧
      (s.reload true).mark.onTime = true ∧ (s.reload true).mark.missRun = s.mark.missRun ∧
      (s.reload true).member.state = (if s.member.state = .listen then .joining else .parked)) ∧
    (s.member.state = .parked → s.member.rejoin = true →
      (s.reload true).tb.state = .seeking ∧ (s.reload true).member.state = .listen ∧
      (s.reload true).member.rejoin = false ∧ (s.reload true).roster = State.resetRoster ∧
      (s.reload true).mark.missRun = 0 ∧ (s.reload true).mark.frameRole = .none ∧
      (s.reload true).mark.onTime = false ∧ (s.reload true).mark.began = .seeking) := by
  have hiff := State.reloadListens_seeking_iff hstate hmember
  refine ⟨fun hno => ?_, fun hparked hrejoin => ?_⟩
  · have hstays : ¬s.ReloadListens true := hiff.not.2 hno
    obtain ⟨htb, hm, -, -⟩ := s.reload_stay true hstays
    obtain ⟨hframe, htime⟩ := State.reload_role hstays hrole
    refine ⟨htb, hframe, htime, ?_, hm.trans (State.reloadMember_listen_or_parked hmember)⟩
    rw [State.reload_missRun hstays, if_neg (by simp [hstate])]
  · obtain ⟨htb, hroster, ⟨m, hm⟩, hlisten, hrejoin', -, -⟩ := s.reload_listen true (hiff.2 ⟨hparked, hrejoin⟩)
    rw [hm]
    exact ⟨htb, hlisten, hrejoin', hroster, rfl, rfl, rfl, rfl⟩

/-- Away from the frame start the edge is followed by a reload (R25): its role waits and its event is posted before. -/
theorem State.edgeAt_followed {s : State} {ln px : Nat} (hstate : s.tb.state = .seeking) (hstart : ¬(ln = 1 ∧ px = 1))
    (h1 : 1 ≤ ln) (h2 : ln ≤ s.settings.fl) (h3 : 1 ≤ px) (h4 : px ≤ s.settings.ll) :
    ∃ u : State, s.edgeAt ln px = u.reload true ∧ u.tb = (s.moveTo ln px).tb ∧ u.member = s.member ∧
      u.mark = ({ s.mark with level := .low } : MarkAligner).followSeek ln px (s.settings.fl - ln + 1) ∧
      u.report = s.report.post (.event s.tb.afn (.trackingEdge (s.settings.fl - ln + 1))) := by
  have hedge := State.edgeAt_seek hstate (fun h => absurd h hstart) h1 h2 h3 h4
  simp only [State.seekEdge, if_neg hstart, cutLength_of_not_start hstart] at hedge
  exact ⟨_, hedge, rfl, rfl, rfl, by simp [State.postEvent]⟩

/-- At a frame start already taken the track order alone changes the state (R21). -/
theorem State.edgeAt_followed_at_start {s : State} (hstate : s.tb.state = .seeking) (hsilence : s.mark.silenceHere = false)
    (hfl : 1 ≤ s.settings.fl) (hll : 1 ≤ s.settings.ll) :
    s.edgeAt 1 1 = { s with
      tb := { (s.moveTo 1 1).tb with state := .tracking }
      mark := ({ s.mark with level := .low } : MarkAligner).followSeek 1 1 0
      member := s.member.startJoining
      report := s.report.post (.event s.tb.afn (.trackingEdge 0)) } := by
  rw [State.edgeAt_seek hstate (fun _ => hsilence) (Nat.le_refl 1) hfl (Nat.le_refl 1) hll]
  simp [State.seekEdge, State.trackOrder, State.postEvent, cutLength]

/-- The station as the reload of an edge before the wrap finds it: the last pixel clock of its frame is the one that the
counters hold (R34). -/
def State.leaveFrame (s : State) : State :=
  { s with
    tb := { s.tb with stateBefore := s.tb.pixelState s.member.state }
    mark := ({ s.mark with level := .low } : MarkAligner).followSeek 1 1 0 }

/-- Before the wrap the edge is followed by a reload that the wrap meets (R6, R21); its event falls in the frame that begins. -/
theorem State.edgeBeforeWrap_followed {s : State} (hstate : s.tb.state = .seeking) :
    s.edgeBeforeWrap = { (s.leaveFrame.reload true).postEvent (.trackingEdge 0) with
      tb := { (s.leaveFrame.reload true).tb with wrapMet := true } } := by
  simp only [State.edgeBeforeWrap, hstate, if_true, State.leaveFrame, State.postEvent_tb]

/-- Settles O16: the three places of an edge in SEEKING; two of them reload. -/
theorem seekingEdgeIsFollowed : Obligations.SeekingEdgeIsFollowed := by
  intro s hr hstate hmember hroom
  refine ⟨fun ln px h1 h2 h3 h4 hstart => ?_, fun hfl hll hsilence => ?_, ?_⟩
  · obtain ⟨u, hedge, htb, hum, hmark, hreport⟩ := State.edgeAt_followed hstate hstart h1 h2 h3 h4
    have hkept := s.moveTo_kept ln px
    have hustate : u.tb.state = .seeking := by rw [htb, hkept.1, hstate]
    obtain ⟨hln, hpx, hafn, -, -⟩ := u.reload_position true
    obtain ⟨-, hstray, hcapture, hlevel⟩ := u.reload_mark_kept true
    obtain ⟨hstays, henters⟩ := State.reload_followed hustate (hum ▸ hmember) (by rw [hmark]; rfl)
    rw [hum] at hstays henters
    refine ⟨u.reload true, (exec_of_running hr rfl).trans (congrArg _ hedge),
      hedge ▸ State.eq_of_kept (s.edgeAt_frame ln px), hln, hpx, ?_, ?_, ?_, u.reload_pendingRole true, ?_, ?_, ?_,
      henters, s.tb.afn, ?_⟩
    · rw [hafn, htb, hkept.2.1]
    · rw [hlevel, hmark]; rfl
    · rw [hcapture, hmark]; rfl
    · exact State.reload_silenceCount true (by rw [hmark]; rfl)
    · rw [hstray, hmark]; rfl
    · intro hno
      obtain ⟨htrack, hframe, htime, hmiss, hm⟩ := hstays hno
      exact ⟨htrack, hframe, htime, by rw [hmiss, hmark]; rfl, hm⟩
    · rw [(u.reload_report true).1 (by rw [hustate]; exact MarkAligner.missReached_seeking _ _), hreport,
        ReportPort.post_room _ _ hroom]
  · refine ⟨_, (exec_of_running hr rfl).trans (congrArg _ (State.edgeAt_followed_at_start hstate hsilence hfl hll)), rfl, ?_,
      rfl, ?_, ?_⟩
    · dsimp only
      conv_lhs => rw [s.moveTo_inside 1 1 (Nat.le_refl 1) hfl (Nat.le_refl 1) hll]
    · exact Membership.startJoining_listen_or_parked hmember
    · exact congrArg ReportPort.queue (ReportPort.post_room _ _ hroom)
  · have hedge := State.edgeBeforeWrap_followed hstate
    have hustate : s.leaveFrame.tb.state = .seeking := hstate
    obtain ⟨hln, hpx, hafn, -, -⟩ := s.leaveFrame.reload_position true
    obtain ⟨-, -, hcapture, hlevel⟩ := s.leaveFrame.reload_mark_kept true
    obtain ⟨hstays, henters⟩ := State.reload_followed hustate hmember rfl
    have hquiet : (s.leaveFrame.reload true).report = s.report := by
      rw [(s.leaveFrame.reload_report true).1 (by rw [hustate]; exact MarkAligner.missReached_seeking _ _)]; rfl
    refine ⟨s.edgeBeforeWrap, exec_of_running hr rfl, ?_⟩
    rw [hedge]
    dsimp only [State.postEvent]
    rw [hquiet, ReportPort.post_room _ _ hroom, hafn]
    refine ⟨hln, hpx, rfl, ?_, ?_, s.leaveFrame.reload_pendingRole true, ?_, ?_, henters, rfl⟩
    · rw [hlevel]; rfl
    · rw [hcapture]; rfl
    · exact State.reload_silenceCount true rfl
    · intro hno
      obtain ⟨htrack, hframe, htime, -, hm⟩ := hstays hno
      exact ⟨htrack, hframe, htime, hm⟩

/-! ## Catch edges and stray edges -/

/-- The reload of an edge in TRACKING that a station follows, by the pending role that the edge leaves (R30, R31, R35). -/
theorem State.reload_tracking {s : State} {role : PendingRole} (hstate : s.tb.state = .tracking)
    (hrole : s.mark.pendingRole = some role) :
    (¬s.ReloadListens false →
      (s.reload false).tb.state = .tracking ∧ (s.reload false).member.state = s.member.state ∧
      (s.reload false).mark.frameRole = role.frameRole ∧ (s.reload false).mark.onTime = true) ∧
    (s.ReloadListens false →
      (s.reload false).tb.state = .seeking ∧ (s.reload false).member.state = .listen ∧
      (s.reload false).member.rejoin = false ∧ (s.reload false).member.rest = 0 ∧
      (s.reload false).member.emptyRun = 0 ∧ (s.reload false).roster = State.resetRoster ∧
      (s.reload false).mark.missRun = 0 ∧ (s.reload false).mark.frameRole = .none ∧
      (s.reload false).mark.onTime = false ∧ (s.reload false).mark.began = .seeking) := by
  refine ⟨fun hstays => ?_, fun hlistens => ?_⟩
  · obtain ⟨htb, hm, -, -⟩ := s.reload_stay false hstays
    exact ⟨htb.trans hstate, hm, State.reload_role hstays hrole⟩
  · obtain ⟨htb, hroster, ⟨m, hmark⟩, hlisten, hrejoin, hrest, hempty⟩ := s.reload_listen false hlistens
    rw [hmark]
    exact ⟨htb, hlisten, hrejoin, hrest, hempty, hroster, rfl, rfl, rfl, rfl⟩

/-- A catch edge credits the frame, and is followed by a reload (R30). -/
theorem State.edgeAt_caught {s : State} {ln px : Nat} (hr : s.running = true) (hstate : s.tb.state = .tracking)
    (hcatch : s.mark.catchArmed = true ∨ s.settings.cz ≤ ln) (h1 : 2 ≤ ln) (h2 : ln ≤ s.settings.fl) (h3 : 1 ≤ px)
    (h4 : px ≤ s.settings.ll) :
    ∃ u : State, s.edgeAt ln px = u.reload false ∧ u.tb = (s.moveTo ln px).tb ∧ u.member = s.member ∧
      u.mark = ({ s.mark with level := .low } : MarkAligner).followCatch ln px (s.settings.fl - ln + 1) := by
  have hedge := s.edgeAt_catch ln px hr hstate hcatch h1 h2 h3 h4
  rw [State.catchEdge, State.moveTo_settings, cutLength_of_not_start (by omega)] at hedge
  exact ⟨_, hedge, rfl, rfl, rfl⟩

/-- A stray edge is counted, and followed by a reload at a station that is no MEMBER (R31). -/
theorem State.edgeAt_strayed {s : State} {ln px : Nat} (hstate : s.tb.state = .tracking)
    (harmed : s.mark.catchArmed = false) (hzone : ln < s.settings.cz) (hcl : 1 ≤ s.settings.cl) (h1 : 1 ≤ ln)
    (h2 : ln ≤ s.settings.fl) (h3 : 1 ≤ px) (h4 : px ≤ s.settings.ll) (hnot : ¬(ln = 1 ∧ px ≤ s.settings.cl))
    (hmember : s.member.state ≠ .member) :
    ∃ u : State, s.edgeAt ln px = u.reload false ∧ u.tb = (s.moveTo ln px).tb ∧ u.member = s.member ∧
      u.mark = ({ s.mark with level := .low } : MarkAligner).followStray ln px (s.settings.fl - ln + 1) ∧
      u.link = s.link ∧ u.roster = s.roster ∧ u.report = s.report ∧ u.transit = s.transit := by
  have hedge := s.edgeAt_stray ln px hstate harmed hzone hcl h1 h2 h3 h4 hnot
  rw [State.strayEdge, if_neg (show ¬(s.moveTo ln px).member.state = .member from hmember), State.moveTo_settings,
    cutLength_of_not_start (by omega)] at hedge
  exact ⟨_, hedge, rfl, rfl, rfl, rfl, rfl, rfl, rfl⟩

/-- Settles O18: the ended frame is credited before the reload. -/
theorem catchEdgeReloadsTheFrame : Obligations.CatchEdgeReloadsTheFrame := by
  intro s ln px hr hstate hcatch h1 h2 h3 h4
  obtain ⟨u, hedge, htb, hum, hmark⟩ := State.edgeAt_caught hr hstate hcatch h1 h2 h3 h4
  have hkept := s.moveTo_kept ln px
  have hustate : u.tb.state = .tracking := by rw [htb, hkept.1, hstate]
  have hlistens : u.ReloadListens false ↔
      s.member.state = .parked ∧ s.member.rejoin = true ∨ s.member.state = .resting ∧ s.member.rest ≤ 1 := by
    simp [State.ReloadListens, State.reloadMember, hum, hmark, MarkAligner.followCatch]
  obtain ⟨hln, hpx, hafn, -, -⟩ := u.reload_position false
  obtain ⟨harmed, hstray, hcapture, hlevel⟩ := u.reload_mark_kept false
  obtain ⟨hstays, henters⟩ := State.reload_tracking hustate (by rw [hmark]; rfl)
  refine ⟨u.reload false, (exec_of_running hr rfl).trans (congrArg _ hedge),
    hedge ▸ State.eq_of_kept (s.edgeAt_frame ln px), hln, hpx, ?_, ?_, ?_, u.reload_pendingRole false, harmed, ?_, ?_,
    u.reload_link false, ?_, ?_⟩
  · rw [hafn, htb, hkept.2.1]
  · rw [hlevel, hmark]; rfl
  · rw [hcapture, hmark]; rfl
  · rw [hstray, hmark]; rfl
  · intro hbegan
    by_cases hl : u.ReloadListens false
    · exact (henters hl).2.2.2.2.2.2.1
    · rw [State.reload_missRun hl, hmark]
      simp [MarkAligner.followCatch, MarkAligner.capture, hbegan, hustate]
  · intro hparked hresting
    rw [← hum]
    exact hstays (hlistens.not.2 fun h => h.elim hparked hresting)
  · intro h
    obtain ⟨htb, hlisten, hrejoin, hrest, -, hroster, hmiss, hframe, htime, -⟩ := henters (hlistens.2 h)
    exact ⟨htb, hlisten, hrejoin, hrest, hroster, hmiss, hframe, htime⟩

/-- Settles O19: the stray edge of a MEMBER is counted, and any other station's reloads. -/
theorem strayEdgeMovesOnlyNonMembers : Obligations.StrayEdgeMovesOnlyNonMembers := by
  intro s ln px hr hstate harmed hzone hcl h1 h2 h3 h4 hnot
  have hkept := s.moveTo_kept ln px
  refine ⟨fun hmember => ?_, fun hmember enters henters => ?_⟩
  · have hedge := s.edgeAt_stray ln px hstate harmed hzone hcl h1 h2 h3 h4 hnot
    rw [State.strayEdge, if_pos (show (s.moveTo ln px).member.state = .member from hmember)] at hedge
    exact ⟨_, (exec_of_running hr rfl).trans (congrArg _ hedge), rfl, s.moveTo_inside ln px h1 h2 h3 h4⟩
  · obtain ⟨u, hedge, hutb, hum, hmark, hulink, huroster, hureport, hutransit⟩ :=
      State.edgeAt_strayed hstate harmed hzone hcl h1 h2 h3 h4 hnot (by rcases hmember with h | h | h <;> simp [h])
    have hustate : u.tb.state = .tracking := by rw [hutb, hkept.1, hstate]
    have huafn : u.tb.afn = s.tb.afn := by rw [hutb, hkept.2.1]
    have hlistens : u.ReloadListens false ↔ enters := by
      rw [henters]
      simp [State.ReloadListens, State.reloadMember, hum, hmark, hustate, MarkAligner.followStray, MarkAligner.countStray,
        MarkAligner.capture]
    obtain ⟨hln, hpx, hafn, hslot, hline⟩ := u.reload_position false
    obtain ⟨-, hstray, hcapture, -⟩ := u.reload_mark_kept false
    obtain ⟨hstays, hlisten⟩ := State.reload_tracking hustate (by rw [hmark]; rfl)
    refine ⟨u.reload false, (exec_of_running hr rfl).trans (congrArg _ hedge),
      hedge ▸ State.eq_of_kept (s.edgeAt_frame ln px), hln, hpx, hafn.trans (by rw [huafn]), hslot, hline, ?_, ?_,
      u.reload_pendingRole false, ?_, fun h => hlisten (hlistens.2 h), ?_, ?_, ?_⟩
    · rw [hcapture, hmark]; rfl
    · rw [hstray, hmark]; rfl
    · intro h
      rw [← hum]
      exact hstays (hlistens.not.2 h)
    · intro hbegan htime hrun hroom
      have hreached : u.mark.missReached .reload u.tb.state = true := by
        rw [MarkAligner.missReached_iff, hmark]
        exact ⟨by simp, hbegan, hustate, htime, hrun⟩
      rw [(u.reload_report false).2 hreached, hureport, ReportPort.post_room _ _ hroom, huafn, hutb,
        s.moveTo_stateBefore ln px h1 h2 h3 h4]
    · intro i hno hopen hi hlength
      rw [State.reload_cut_entry false (hlistens.not.2 hno) hustate (by rw [hutb, hkept.2.2.1, hopen])
        (by rw [huroster, hlength]; exact hi), huroster, hulink]
      rfl
    · intro j hopen
      obtain ⟨more, hmore⟩ := State.reload_withdraws (s := u) (j := j) false (by rw [hutb, hkept.2.2.2, hopen])
      exact ⟨more, by rw [← hmore, hutransit]⟩

end Sys2Proof.Machine
end

section
/-! Membership and the Timebase in agreement (Tables 6-1 and 6-2, R98 to R115): what the Membership Controller's own operations
keep. -/

namespace Sys2Proof.Machine

open Sys2Proof

/-! ## The Membership Controller's own operations -/

/-- What the state of a running station says of the timebase state and of its own fields (Tables 6-1 and 6-2). -/
structure Membership.Legal (m : Membership) (timebase : TimebaseState) : Prop where
  runs : m.state ≠ .config ∧ m.state ≠ .halted
  listens : m.state = .listen → timebase = .seeking
  tracks : m.state = .joining ∨ m.state = .member ∨ m.state = .resting → timebase = .tracking
  withdrawal : m.withdrawal ≠ none → m.state = .member
  park : m.park = true → m.withdrawal ≠ none
  rejoin : m.rejoin = true → m.state = .parked
  rest : m.state = .resting → 1 ≤ m.rest ∧ m.rest ≤ 3
  restOver : m.state ≠ .resting → m.rest = 0
  emptyRun : m.emptyRun ≠ 0 → m.state = .joining
  unheardRun : m.unheardRun ≠ 0 → m.state = .member

/-- The Membership Controller of a held part: nothing is pending and nothing is counted (R97, R173). -/
structure Membership.Held (m : Membership) : Prop where
  state : m.state = .config ∨ m.state = .halted
  withdrawal : m.withdrawal = none
  park : m.park = false
  rejoin : m.rejoin = false
  rest : m.rest = 0
  emptyRun : m.emptyRun = 0
  unheardRun : m.unheardRun = 0

namespace Membership.Legal

variable {m : Membership} {timebase : TimebaseState}

/-- Only a MEMBER has a withdrawal pending or an unheard run (R104, R105). -/
theorem not_member (h : m.Legal timebase) (hne : m.state ≠ .member) :
    m.withdrawal = none ∧ m.park = false ∧ m.unheardRun = 0 := by
  have hw : m.withdrawal = none := not_not.1 fun hw => hne (h.withdrawal hw)
  exact ⟨hw, Bool.not_eq_true _ ▸ fun hp => h.park hp hw, not_not.1 fun hu => hne (h.unheardRun hu)⟩

theorem not_joining (h : m.Legal timebase) (hne : m.state ≠ .joining) : m.emptyRun = 0 :=
  not_not.1 fun he => hne (h.emptyRun he)

theorem not_parked (h : m.Legal timebase) (hne : m.state ≠ .parked) : m.rejoin = false :=
  Bool.not_eq_true _ ▸ fun hr => hne (h.rejoin hr)

/-- A station that is no MEMBER enters LISTEN with a seek order (R99). -/
theorem enterListen (h : m.Legal timebase) (hne : m.state ≠ .member) : m.enterListen.Legal .seeking := by
  obtain ⟨hw, -, -⟩ := h.not_member hne
  constructor <;> simp [Membership.enterListen, hw]

/-- A track order leaves no station in LISTEN (R100). -/
theorem startJoining (h : m.Legal timebase) : m.startJoining.Legal .tracking := by
  by_cases hl : m.state = .listen
  · obtain ⟨hw, hp, hu⟩ := h.not_member (by simp [hl])
    have hr := h.not_parked (by simp [hl])
    have hrest := h.restOver (by simp [hl])
    constructor <;> simp [Membership.startJoining, hl, hw, hp, hu, hr, hrest]
  · rw [Membership.startJoining, if_neg hl]
    exact { h with listens := fun hl' => absurd hl' hl, tracks := fun _ => rfl }

theorem raise (h : m.Legal timebase) (cause : WithdrawalCause) : (m.raise cause).Legal timebase := by
  unfold Membership.raise; split
  · rename_i hm
    exact { h with withdrawal := fun _ => hm.1, park := fun _ => by simp }
  · exact h

/-- A withdrawal takes a MEMBER to PARKED, or to RESTING with the whole rest to come (R111, R112). -/
theorem withdraw (h : m.Legal timebase) (hm : m.state = .member) (cause : WithdrawalCause) :
    (m.withdraw cause).Legal timebase := by
  have ht := h.tracks (by simp [hm])
  have he := h.not_joining (by simp [hm])
  have hr := h.not_parked (by simp [hm])
  have hrest := h.restOver (by simp [hm])
  unfold Membership.withdraw; split
  · constructor <;> simp [he, hrest]
  · rename_i hstays
    have hp : m.park = false := by simpa using fun hp => hstays (Or.inr hp)
    constructor <;> simp [he, hr, hp, ht, Config.restFrames]

/-- A JOINING station becomes MEMBER (R108, R110). -/
theorem becomeMember (h : m.Legal timebase) (hj : m.state = .joining) : m.becomeMember.Legal timebase := by
  have ht := h.tracks (by simp [hj])
  obtain ⟨-, hp, -⟩ := h.not_member (by simp [hj])
  have hr := h.not_parked (by simp [hj])
  have hrest := h.restOver (by simp [hj])
  constructor <;> simp [Membership.becomeMember, ht, hp, hr, hrest]

/-- A LEAVE parks a station in LISTEN, JOINING or RESTING (R114). -/
theorem parkFrom (h : m.Legal timebase) (hs : m.state = .listen ∨ m.state = .joining ∨ m.state = .resting) :
    m.parkFrom.Legal timebase := by
  obtain ⟨hw, hp, hu⟩ := h.not_member (by rcases hs with hs | hs | hs <;> simp [hs])
  unfold Membership.parkFrom; split
  · rename_i hj
    have hrest := h.restOver (by simp [hj])
    constructor <;> simp [hw, hp, hu, hrest]
  · rename_i hr
    have he := h.not_joining (by simp [hr])
    constructor <;> simp [hw, hp, hu, he]
  · rename_i hnj hnr
    have he := h.not_joining hnj
    have hrest := h.restOver hnr
    constructor <;> simp [hw, hp, hu, he, hrest]

end Membership.Legal

/-- A part that is accepted begins in LISTEN (R174). -/
theorem Membership.Held.enterListen {m : Membership} (h : m.Held) : m.enterListen.Legal .seeking := by
  constructor <;> simp [Membership.enterListen, h.withdrawal]

end Sys2Proof.Machine
end

section
/-! A running part whose membership and Timebase agree, and what keeps it so: one lemma for each operation that changes
membership or gives an order. -/

namespace Sys2Proof.Machine

open Sys2Proof

/-! ## A running part: what the operations keep -/

/-- Membership and the Timebase of a running part agree. -/
def State.Agrees (s : State) : Prop := s.member.Legal s.tb.state

theorem MembershipState.ne_of_held {a b : MembershipState} (h : a = .config ∨ a = .halted) (hc : b ≠ .config)
    (hh : b ≠ .halted) : a ≠ b := by
  rintro rfl; exact h.elim hc hh

/-- The agreement of a part that runs or is held. -/
theorem membershipLegal_iff (s : State) : s.MembershipLegal ↔
    (s.running = true → s.Agrees) ∧ (s.running = false → s.member.Held) := by
  constructor
  · rintro ⟨hrun, hlisten, htrack, hw, hp, hr, hrest, hover, he, hu⟩
    refine ⟨fun hruns => ⟨?_, hlisten, htrack, hw, hp, hr, hrest, hover, he, hu⟩, fun hheld => ?_⟩
    · rw [hruns] at hrun; simpa using hrun
    · have hne := fun m => MembershipState.ne_of_held (b := m) (hrun.1 hheld)
      have hnone : s.member.withdrawal = none := not_not.1 fun h => hne .member nofun nofun (hw h)
      exact ⟨hrun.1 hheld, hnone, Bool.not_eq_true _ ▸ fun h => hp h hnone,
        Bool.not_eq_true _ ▸ fun h => hne .parked nofun nofun (hr h), hover (hne .resting nofun nofun),
        not_not.1 fun h => hne .joining nofun nofun (he h), not_not.1 fun h => hne .member nofun nofun (hu h)⟩
  · rintro ⟨hrun, hheld⟩
    cases hr : s.running with
    | true =>
      obtain ⟨hruns, hlisten, htrack, hw, hp, hrejoin, hrest, hover, he, hu⟩ := hrun hr
      exact ⟨by simpa [hr] using hruns, hlisten, htrack, hw, hp, hrejoin, hrest, hover, he, hu⟩
    | false =>
      obtain ⟨hstate, hw, hp, hrejoin, hrest, he, hu⟩ := hheld hr
      have hne := fun m => MembershipState.ne_of_held (b := m) hstate
      simp [State.MembershipLegal, hr, hstate, hw, hp, hrejoin, hrest, he, hu, hne]

theorem membershipLegal_of_running {s : State} (hr : s.running = true) (h : s.Agrees) : s.MembershipLegal :=
  (membershipLegal_iff s).2 ⟨fun _ => h, fun hheld => absurd hr (by simp [hheld])⟩

theorem membershipLegal_of_held {s : State} (hr : s.running = false) (h : s.member.Held) : s.MembershipLegal :=
  (membershipLegal_iff s).2 ⟨fun hrun => absurd hr (by simp [hrun]), fun _ => h⟩

section
variable {s : State}

/-- The agreement speaks of the Membership Controller and the timebase state alone. -/
theorem State.Agrees.congr (h : s.Agrees) {t : State} (hm : t.member = s.member) (ht : t.tb.state = s.tb.state) :
    t.Agrees := by
  unfold State.Agrees; rw [hm, ht]; exact h

theorem State.trackOrder_agrees (h : s.Agrees) : s.trackOrder.Agrees := Membership.Legal.startJoining h

theorem State.raise_agrees (h : s.Agrees) (cause : WithdrawalCause) : (s.raise cause).Agrees :=
  Membership.Legal.raise h cause

/-! ## Frame starts and reloads (R34, R99 to R102) -/

/-- A MEMBER never enters LISTEN at a frame start (R101). -/
theorem State.entersListen_not_member {handed : Option Nat} (h : s.entersListen handed) : s.member.state ≠ .member := by
  rcases h with ⟨h, -⟩ | ⟨h, -⟩ | ⟨h, -⟩ <;> simp [h]

theorem State.memberFrameStart_agrees (h : s.Agrees) (cause : FrameCause) (handed : Option Nat) (had : Bool) :
    (s.memberFrameStart cause handed had).Agrees := by
  by_cases hc : cause = .first
  · rw [State.memberFrameStart, if_pos hc]
    exact { h with }
  by_cases he : s.entersListen handed
  · rw [s.memberFrameStart_enter cause handed had hc he]
    exact { Membership.Legal.enterListen h (State.entersListen_not_member he) with }
  · have hlong : s.member.state = .resting → 2 ≤ s.member.rest := fun hr =>
      Nat.lt_of_not_le fun hrest => he (Or.inr (Or.inl ⟨hr, hrest⟩))
    obtain ⟨w, hw, hstay⟩ := s.memberFrameStart_stay cause handed had hc he
    rw [hstay]
    refine { h with withdrawal := fun hne => ?_, park := fun hp => ?_, rest := fun hr => ?_, restOver := fun hr => ?_,
                    emptyRun := fun hne => ?_ }
    · rcases hw with rfl | ⟨hm, -⟩
      · exact h.withdrawal hne
      · exact hm
    · rcases hw with rfl | ⟨-, rfl | rfl⟩
      · exact h.park hp
      · exact nofun
      · exact nofun
    · have hrange := h.rest hr
      have htwo := hlong hr
      dsimp only at hr ⊢
      rw [if_pos hr]; omega
    · exact (if_neg hr).trans (h.restOver hr)
    · exact h.emptyRun fun hzero => hne (by simp [hzero])

theorem State.markFrameStart_agrees (h : s.Agrees) (cause : FrameCause) (ended : TimebaseState) :
    (s.markFrameStart cause ended).Agrees := by
  unfold State.Agrees
  rw [s.markFrameStart_member, s.markFrameStart_tb]
  by_cases hsilence : s.mark.silenceReached cause ended = true
  · rw [if_pos hsilence]; simpa [hsilence] using Membership.Legal.startJoining h
  · rw [if_neg hsilence]; simpa [hsilence, State.Agrees] using h

theorem State.frameStart_agrees (h : s.Agrees) (cause : FrameCause) (ended : TimebaseState) :
    (s.frameStart cause ended).Agrees :=
  State.Agrees.congr (State.memberFrameStart_agrees (State.markFrameStart_agrees h cause ended) cause _ _)
    (State.latchFrame_frame _).2.2.2.2.2.2.1 (by simp [State.frameStart])

theorem State.naturalFrameStart_agrees (h : s.Agrees) : s.naturalFrameStart.Agrees := by
  unfold State.naturalFrameStart; split
  · exact h
  · exact State.frameStart_agrees h _ _

theorem State.frameStartWhen_agrees (h : s.Agrees) (met : Bool) : (s.frameStartWhen met).Agrees := by
  unfold State.frameStartWhen; split
  · exact State.naturalFrameStart_agrees h
  · exact h

theorem State.reload_agrees (h : s.Agrees) (track : Bool) : (s.reload track).Agrees := by
  obtain ⟨x, hx, -, -, hmember, hstate, -⟩ := s.reload_eq track
  rw [hx]
  refine State.frameStart_agrees ?_ _ _
  unfold State.Agrees
  rw [hmember, hstate]
  cases track with
  | true => exact Membership.Legal.startJoining h
  | false => exact h

/-! ## Edges of MARK (R25 to R31) -/

theorem State.seekEdge_agrees (h : s.Agrees) (ln px : Nat) : (s.seekEdge ln px).Agrees := by
  unfold State.seekEdge; dsimp only; split
  · refine State.trackOrder_agrees ?_
    exact h
  · refine State.reload_agrees ?_ true
    exact h

theorem State.trackingEdge_agrees (h : s.Agrees) (ln px : Nat) : (s.trackingEdge ln px).Agrees := by
  unfold State.trackingEdge; split
  · exact h
  · refine State.reload_agrees ?_ false
    exact h
  · unfold State.strayEdge; split
    · exact h
    · refine State.reload_agrees ?_ false
      exact h
  · exact h

theorem State.edgeHere_agrees (h : s.Agrees) : s.edgeHere.Agrees := by
  unfold State.edgeHere
  repeat' split
  · refine State.trackOrder_agrees ?_
    exact h
  · exact State.seekEdge_agrees h _ _
  · exact State.trackingEdge_agrees h _ _

theorem State.takeEdge_agrees (h : s.Agrees) (time : EdgeTime) : (s.takeEdge time).Agrees := by
  cases time with
  | pixel ln px => exact State.edgeHere_agrees (State.Agrees.congr h rfl (s.moveTo_kept ln px).1)
  | wrap =>
    unfold State.takeEdge State.edgeBeforeWrap; dsimp only; split
    · generalize hx : State.reload _ true = x
      have reloaded : x.Agrees := by
        subst hx; refine State.reload_agrees ?_ true
        exact h
      exact reloaded
    · exact h

/-! ## The vote and the swap line (R103 to R111) -/

/-- The unheard run is counted in MEMBER alone (R105). -/
theorem State.countUnheard_agrees (h : s.Agrees) (hm : s.member.state = .member) (unheard : Bool) :
    ({ s with member := s.member.countUnheard unheard } : State).Agrees := { h with unheardRun := fun _ => hm }

theorem State.memberRollCall_agrees (h : s.Agrees) (hm : s.member.state = .member) (results : Results) :
    (s.memberRollCall results).Agrees := by
  have claimLost : s.claimLostCheck.Agrees ∧ s.claimLostCheck.member.state = .member := by
    unfold State.claimLostCheck; split
    · exact ⟨State.raise_agrees h _, by rw [State.raise_member]; exact hm⟩
    · exact ⟨h, hm⟩
  have unheard : (s.claimLostCheck.unheardCheck results).Agrees := by
    have counted := State.countUnheard_agrees claimLost.1 claimLost.2 results.unheard
    unfold State.unheardCheck; dsimp only; split
    · exact State.raise_agrees counted _
    · exact counted
  unfold State.memberRollCall State.outOfStepCheck; split
  · exact State.raise_agrees unheard _
  · exact unheard

/-- In any state but MEMBER a roll call leaves no unheard run (R103, R105). -/
theorem State.clearUnheard_agrees (h : s.Agrees) : ({ s with member := { s.member with unheardRun := 0 } } : State).Agrees :=
  { h with unheardRun := fun hne => absurd rfl hne }

theorem State.membershipRollCall_agrees (h : s.Agrees) (results : Results) : (s.membershipRollCall results).Agrees := by
  unfold State.membershipRollCall
  split
  · exact State.memberRollCall_agrees h ‹_› results
  split
  · rename_i hj
    exact { h with emptyRun := fun _ => hj, unheardRun := fun hne => absurd rfl hne }
  · exact State.clearUnheard_agrees h

theorem State.rollCallClose_agrees (h : s.Agrees) (cells : List Samples) : (s.rollCallClose cells).Agrees := by
  have there := State.Agrees.congr h (t := s.moveToEnd s.settings.vl (Config.stations * s.settings.cl)) rfl
    (State.moveToEnd_kept _ _ _).1
  unfold State.rollCallClose; dsimp only
  repeat' split
  · unfold State.rollCallWith; dsimp only; split
    · refine State.membershipRollCall_agrees ?_ _
      exact there
    · exact there
  · exact there
  · exact State.clearUnheard_agrees there

theorem State.verdictSample_agrees (h : s.Agrees) (samples : Samples) : (s.verdictSample samples).Agrees := by
  have there := State.Agrees.congr h (t := s.moveToEnd (s.settings.vl + 1) (s.settings.middle + 1)) rfl
    (State.moveToEnd_kept _ _ _).1
  have recorded : ((s.moveToEnd (s.settings.vl + 1) (s.settings.middle + 1)).recordVerdict samples.level).Agrees :=
    { there with }
  unfold State.verdictSample; dsimp only; split
  · unfold State.receptionCheck; split
    · exact Membership.Legal.raise recorded _
    · exact recorded
  · exact there

theorem State.swapWord_withdraws {cause : WithdrawalCause} (h : s.swapWord = .withdraws cause) :
    s.member.state = .member := by
  unfold State.swapWord State.joinerWord at h
  repeat' split at h
  all_goals simp_all

theorem State.swapWord_joins {word : SwapWord} (h : s.swapWord = word) (hw : word = .founds ∨ ∃ target, word = .joins target) :
    s.member.state = .joining := by
  unfold State.swapWord at h
  rcases hw with rfl | ⟨target, rfl⟩
  all_goals
    repeat' split at h
    all_goals simp_all

theorem State.actOnSwapWord_agrees (h : s.Agrees) : (s.actOnWord s.swapWord).Agrees := by
  cases hw : s.swapWord with
  | stays => exact State.Agrees.congr h (State.stayAtSwap_frame s).2.2.2.2.2.2.1 (by simp [State.actOnWord])
  | withdraws cause =>
    refine State.Agrees.congr (s := { s with member := s.member.withdraw cause }) ?_ ?_ ?_
    · exact Membership.Legal.withdraw h (State.swapWord_withdraws hw) cause
    · simp [State.actOnWord, State.withdrawAtSwap]
    · simp [State.actOnWord]
  | joins target => exact Membership.Legal.becomeMember h (State.swapWord_joins hw (Or.inr ⟨target, rfl⟩))
  | founds => exact Membership.Legal.becomeMember h (State.swapWord_joins hw (Or.inl rfl))
  | failedJoin target => exact h
  | none => exact h

theorem State.swapLine_agrees (h : s.Agrees) : s.swapLine.Agrees := by
  have there := State.Agrees.congr h (t := s.moveTo s.settings.sw 1) rfl (State.moveTo_kept _ _ _).1
  exact State.Agrees.congr (State.actOnSwapWord_agrees there) (State.reportFrame_member _ _ _)
    (by simp [State.swapLine, State.takeSwapLine])

/-! ## Requests (R46, R113 to R115) -/

theorem State.whenNext_agrees (h : s.Agrees) (next : Bool) {t : State} (ht : t.Agrees) : (s.whenNext next t).Agrees := by
  unfold State.whenNext; split
  · exact ht
  · exact h

theorem State.actOnLeave_agrees (h : s.Agrees) : s.actOnLeave.Agrees := by
  unfold State.actOnLeave; split
  · unfold State.leaveMember
    split
    · exact State.raise_agrees h _
    · rename_i hw
      split
      · exact h
      · exact { h with park := fun _ => by simp [hw] }
  · exact Membership.Legal.parkFrom h (Or.inl ‹_›)
  · exact Membership.Legal.parkFrom h (Or.inr (Or.inl ‹_›))
  · exact Membership.Legal.parkFrom h (Or.inr (Or.inr ‹_›))
  · exact { h with rejoin := nofun }
  · exact h
  · exact h

theorem State.actOnRejoin_agrees (h : s.Agrees) : s.actOnRejoin.Agrees := by
  unfold State.actOnRejoin; split
  · exact { h with rejoin := fun _ => ‹_› }
  all_goals exact h

end

end Sys2Proof.Machine
end

section
/-! Every step keeps membership and the Timebase in agreement. -/

namespace Sys2Proof.Machine

open Sys2Proof

/-! ## The commands that leave membership and the timebase state alone -/

@[simp] theorem State.lineStart_tb_state (s : State) (line : Nat) : (s.lineStart line).tb.state = s.tb.state := by
  unfold State.lineStart; split <;> simp

@[simp] theorem State.slotBegin_tb_state (s : State) (slot : Nat) : (s.slotBegin slot).tb.state = s.tb.state := by
  unfold State.slotBegin; split <;> simp

@[simp] theorem State.moveInSlot_tb_state (s : State) (slot position : Nat) :
    (s.moveInSlot slot position).tb.state = s.tb.state := by simp [State.moveInSlot]

@[simp] theorem State.talkCell_tb_state (s : State) (cell : Nat) (samples : Samples) :
    (s.talkCell cell samples).tb.state = s.tb.state := by
  unfold State.talkCell; dsimp only; (repeat' split) <;> simp

@[simp] theorem State.announceSent_tb_state (s : State) : s.announceSent.tb.state = s.tb.state := by
  unfold State.announceSent; dsimp only; split <;> simp

@[simp] theorem State.endSlot_tb_state (s : State) (slot : Nat) : (s.endSlot slot).tb.state = s.tb.state := by
  unfold State.endSlot; dsimp only; split <;> simp

@[simp] theorem State.slotEnd_tb_state (s : State) (slot : Nat) : (s.slotEnd slot).tb.state = s.tb.state := by
  unfold State.slotEnd; split <;> simp

@[simp] theorem State.rollCallCell_tb_state (s : State) : s.rollCallCell.tb.state = s.tb.state := by
  unfold State.rollCallCell; dsimp only; split <;> simp

@[simp] theorem State.verdictLatch_tb_state (s : State) : s.verdictLatch.tb.state = s.tb.state := by
  simp [State.verdictLatch]

@[simp] theorem State.catchZoneEntry_tb_state (s : State) : s.catchZoneEntry.tb.state = s.tb.state := by
  simp [State.catchZoneEntry]

@[simp] theorem State.imageLineStart_tb_state (s : State) (line : Nat) :
    (s.imageLineStart line).tb.state = s.tb.state := by
  unfold State.imageLineStart; dsimp only; split <;> simp

@[simp] theorem State.imageLineEnd_tb_state (s : State) (line : Nat) : (s.imageLineEnd line).tb.state = s.tb.state := by
  unfold State.imageLineEnd; dsimp only; split <;> simp

@[simp] theorem State.columnDue_tb_state (s : State) (line column : Nat) :
    (s.columnDue line column).tb.state = s.tb.state := by
  unfold State.columnDue; split <;> simp

/-- No phase of a pixel clock gives an order (R10). -/
@[simp] theorem State.tick_tb_state (s : State) : s.tick.tb.state = s.tb.state := by
  unfold State.tick State.nextPixel; dsimp only
  (repeat' split) <;> simp [State.takeSamples, State.endPixel, Timebase.endAt, Timebase.beginAt]

/-! ## Every command of a running part -/

/-- A running part stays running, and its membership and its Timebase agree, at every command but RESET. -/
theorem exec_agrees {c : Instr} {s t : State} (h : s.Agrees) (hr : s.running = true) (hc : ∀ kind, c ≠ .reset kind)
    (hx : exec c s = .next t) : t.Agrees ∧ t.loader = s.loader := by
  have taken {u : State} (hx : (.next (s.whenRunning u) : Host.Outcome State Fault Refusal) = .next t) (hu : u.Agrees)
      (hl : u.loader = s.loader) : t.Agrees ∧ t.loader = s.loader := by
    rw [next_of_running hr hx]; exact ⟨hu, hl⟩
  have kept {u : State} (hx : (.next (s.whenRunning u) : Host.Outcome State Fault Refusal) = .next t)
      (hu : u.member = s.member ∧ u.tb.state = s.tb.state ∧ u.loader = s.loader) : t.Agrees ∧ t.loader = s.loader :=
    taken hx (h.congr hu.1 hu.2.1) hu.2.2
  cases c with
  | reset kind => exact absurd rfl (hc kind)
  | resetRelease straps =>
    obtain rfl := Host.Outcome.next.inj hx
    rw [release_of_running hr]; exact ⟨h, rfl⟩
  | imageReadDone bytes =>
    obtain rfl := Host.Outcome.next.inj hx
    rw [imageRead_of_running hr]; exact ⟨h, rfl⟩
  | frameStart => exact taken hx (State.naturalFrameStart_agrees h) (by simp)
  | markLost => exact taken hx (State.frameStartWhen_agrees h _) (by simp)
  | seekSilence => exact taken hx (State.frameStartWhen_agrees h _) (by simp)
  | restEnd => exact taken hx (State.frameStartWhen_agrees h _) (by simp)
  | inputTimeout => exact taken hx (State.frameStartWhen_agrees h _) (by simp)
  | lineStart line => exact kept hx (by simp)
  | markEdge time => exact taken hx (State.takeEdge_agrees h time) (by simp)
  | slotBegin slot => exact kept hx (by simp)
  | announceSent => exact kept hx (by simp)
  | slotEnd slot => exact kept hx (by simp)
  | recordExpiry slot => exact kept hx (by split <;> simp)
  | rollCallCell => exact kept hx (by simp)
  | rollCallClose cells => exact taken hx (State.rollCallClose_agrees h cells) (by simp)
  | verdictLatch => exact kept hx (by simp)
  | verdictSample samples => exact taken hx (State.verdictSample_agrees h samples) (by simp)
  | swapLine => exact taken hx (State.swapLine_agrees h) (by simp)
  | catchZoneEntry => exact kept hx (by simp)
  | imageLineStart line => exact kept hx (by simp)
  | imageLineEnd line => exact kept hx (by simp)
  | underrun line column => exact kept hx (by simp)
  | readerCompletion d => exact kept hx (by simp)
  | frameOpen content => exact kept hx (by simp)
  | frameFlags payload => exact kept hx (by simp)
  | lineOpen index => exact kept hx (by simp)
  | pixelWord colour => exact kept hx (by simp)
  | frameClose count => exact kept hx (by simp)
  | damagedControlWord word => exact kept hx (by simp)
  | frameOpenArrival => exact taken hx (State.whenNext_agrees h _ { h with }) (by simp)
  | leave => exact taken hx (State.whenNext_agrees h _ (State.actOnLeave_agrees h)) (by simp)
  | rejoin => exact taken hx (State.whenNext_agrees h _ (State.actOnRejoin_agrees h)) (by simp)
  | refreshClaim => exact kept hx (by simp)
  | writerClaim slot line => exact kept hx (by simp)
  | readerClaim item => exact kept hx (by simp)
  | burstCompletion =>
    obtain rfl | ⟨b, rfl⟩ := burstCompletion_next hr hx
    · exact ⟨h, rfl⟩
    · exact ⟨h.congr (by simp) (by simp), by simp⟩
  | memoryDiscard slot => exact kept hx (by simp)
  | readerWithdrawal line => exact kept hx (by simp)
  | recordSent =>
    obtain rfl := Host.Outcome.next.inj hx
    exact ⟨h, rfl⟩
  | markRisingEdge => exact taken hx h rfl
  | talkCellSettled cell samples => exact kept hx (by simp)

/-! ## A held part -/

section
variable {s : State}

/-- An accepted image starts the station in LISTEN (R174). -/
theorem State.accept_agrees (h : s.member.Held) (c : Settings) : (s.accept c).Agrees := by
  refine State.frameStart_agrees ?_ .first .seeking
  unfold State.Agrees
  rw [State.enterListen_member, State.enterListen_tb]
  exact h.enterListen

theorem State.failAttempt_held_member (h : s.member.Held) (code : Nat) : (s.failAttempt code).member.Held := by
  unfold State.failAttempt State.halt; dsimp only; split
  · exact h
  · exact { h with state := Or.inr rfl }

/-- A reading attempt ends: the station starts in LISTEN, or the part stays held (R173, R174). -/
theorem State.imageRead_legal (hr : s.running = false) (h : s.member.Held) (bytes : List Byte) :
    (s.imageRead bytes).MembershipLegal := by
  have received :
      ({ s with loader := { s.loader with phase := .checking, image := bytes.map some } } : State).member.Held := h
  unfold State.imageRead; dsimp only
  split
  · split
    · exact membershipLegal_of_held (State.failAttempt_held _) (State.failAttempt_held_member received _)
    · exact membershipLegal_of_running (State.accept_running _) (State.accept_agrees received _)
  · exact membershipLegal_of_held hr h

theorem State.release_legal (hr : s.running = false) (h : s.member.Held) (straps : ReleasePins) :
    (s.release straps).MembershipLegal := by
  unfold State.release; split
  · exact membershipLegal_of_held rfl h
  · exact membershipLegal_of_held hr h

end

theorem exec_keeps_legal {c : Instr} {s t : State} (h : s.MembershipLegal) (hx : exec c s = .next t) :
    t.MembershipLegal := by
  by_cases hreset : ∃ kind, c = .reset kind
  · obtain ⟨kind, rfl⟩ := hreset
    obtain rfl := Host.Outcome.next.inj hx
    exact reset_membershipLegal
  obtain ⟨hrun, hheld⟩ := (membershipLegal_iff s).1 h
  cases hr : s.running with
  | true =>
    obtain ⟨ht, hl⟩ := exec_agrees (hrun hr) hr (fun kind hc => hreset ⟨kind, hc⟩) hx
    exact membershipLegal_of_running (by rw [State.running_congr hl, hr]) ht
  | false =>
    cases hc : c.actsHeld with
    | false =>
      rw [exec_held c s hr hc] at hx
      obtain rfl := Host.Outcome.next.inj hx
      exact h
    | true =>
      cases c with
      | reset kind => exact absurd ⟨kind, rfl⟩ hreset
      | resetRelease straps =>
        obtain rfl := Host.Outcome.next.inj hx
        exact State.release_legal hr (hheld hr) straps
      | imageReadDone bytes =>
        obtain rfl := Host.Outcome.next.inj hx
        exact State.imageRead_legal hr (hheld hr) bytes
      | recordSent =>
        obtain rfl := Host.Outcome.next.inj hx
        exact h
      | _ => cases hc

/-- No phase of a pixel clock changes membership, the timebase state or whether the part runs. -/
theorem tick_keeps_legal {s : State} (h : s.MembershipLegal) : s.tick.MembershipLegal := by
  have hrunning : s.tick.running = s.running := by simp [State.running, tick_loader_phase]
  unfold State.MembershipLegal
  rw [hrunning, s.tick_tb_state, s.tick_frame.2.2.2.1]
  exact h

/-- Settles O56: a step is the pixel clock's or the front command's, and each keeps the agreement. -/
theorem everyStepKeepsMembershipLegal : Obligations.EveryStepKeepsMembershipLegal := by
  intro s t hlegal hstep
  unfold step at hstep
  split at hstep
  · obtain rfl := Host.Outcome.next.inj hstep
    exact tick_keeps_legal hlegal
  · rename_i c rest _
    exact exec_keeps_legal (s := { s with pending := rest }) hlegal hstep

end Sys2Proof.Machine
end

section
/-! The on-time own edge (R28, R29), and the edge at the frame start of seek silence (R26). -/

namespace Sys2Proof.Machine

open Sys2Proof

/-- An edge in the first cell of a TRACKING frame is on-time own, but for the one at the frame start of seek silence
(R26, R28). -/
theorem State.edgeAt_onTime {s : State} {px : Nat} (hstate : s.tb.state = .tracking) (hcell : px ≤ s.settings.cl)
    (hsilence : px = 1 → s.mark.silenceHere = false) (hfl : 1 ≤ s.settings.fl) (h1 : 1 ≤ px) (hll : px ≤ s.settings.ll) :
    s.edgeAt 1 px = ({ s.moveTo 1 px with mark := { s.mark with level := .low } } : State).onTimeEdge 1 px := by
  have hln := s.moveTo_ln 1 px (Nat.le_refl 1) hfl h1 hll
  have hpx := s.moveTo_px 1 px (Nat.le_refl 1) hfl h1 hll
  have hnot : ¬(px = 1 ∧ s.mark.silenceHere = true) := fun h => by simp [hsilence h.1] at h
  simp [State.edgeAt, State.edgeHere, State.trackingEdge, MarkAligner.classify, hln, hpx, hnot, hstate, hcell]

/-- At the frame start of seek silence the edge is followed in place of the silence, in either timebase state (R26). -/
theorem State.edgeAt_silence {s : State} (hsilence : s.mark.silenceHere = true) (hfl : 1 ≤ s.settings.fl)
    (hll : 1 ≤ s.settings.ll) :
    s.edgeAt 1 1 = ({ s.moveTo 1 1 with mark := { s.mark with level := .low } } : State).silenceEdge := by
  have hln := s.moveTo_ln 1 1 (Nat.le_refl 1) hfl (Nat.le_refl 1) hll
  have hpx := s.moveTo_px 1 1 (Nat.le_refl 1) hfl (Nat.le_refl 1) hll
  simp [State.edgeAt, State.edgeHere, hln, hpx, hsilence]

/-- A track order is the start of joining in LISTEN, and leaves any other station as it is (R100). -/
theorem Membership.startJoining_eq (m : Membership) : m.startJoining = { m with
    state := if m.state = .listen then .joining else m.state
    emptyRun := if m.state = .listen then 0 else m.emptyRun } := by
  unfold Membership.startJoining; split <;> simp_all

/-- The record told again is the newest of tracking by silence, and the records around it stand (R26; log 4). -/
theorem retellSilence_newest (cut : Nat) (older newer : List QueuedRecord) (afn lost : Count16)
    (hnewer : ∀ q ∈ newer, ∀ a, q.body ≠ .event a .trackingSilence) :
    retellSilence cut (older ++ ⟨.event afn .trackingSilence, lost⟩ :: newer) =
      older ++ ⟨.event afn (.trackingEdge cut), lost⟩ :: newer := by
  induction older with
  | nil =>
    simp only [List.nil_append, retellSilence]
    rw [if_neg]
    rw [List.any_eq_true]
    rintro ⟨q, hq, hsilence⟩
    split at hsilence
    · rename_i a hbody
      exact hnewer q hq a hbody
    · cases hsilence
  | cons q rest ih =>
    simp only [List.cons_append, retellSilence, ih]
    split
    · rw [if_pos]
      rw [List.any_eq_true]
      exact ⟨⟨.event afn .trackingSilence, lost⟩, by simp, rfl⟩
    · rfl

/-- Settles O17: an on-time own edge touches the Mark Aligner alone, and the edge in place of the silence adds the track order
and the record told again. -/
theorem onTimeEdgeCreditsTheFrame : Obligations.OnTimeEdgeCreditsTheFrame := by
  intro s px hr hfl h1 hll
  refine ⟨fun hstate hcell hsilence => ?_, fun hpx hsilence => ?_⟩
  · have hedge := State.edgeAt_onTime hstate hcell hsilence hfl h1 hll
    exact ⟨_, (exec_of_running hr rfl).trans (congrArg _ hedge), rfl, s.moveTo_inside 1 px (Nat.le_refl 1) hfl h1 hll⟩
  · subst hpx
    have hedge := State.edgeAt_silence hsilence hfl hll
    refine ⟨_, (exec_of_running hr rfl).trans (congrArg _ hedge), ?_, ?_, ?_, ?_⟩
    · rw [← Membership.startJoining_eq]
      rfl
    · simp only [State.silenceEdge, State.trackOrder]
      conv_lhs => rw [s.moveTo_inside 1 1 (Nat.le_refl 1) hfl (Nat.le_refl 1) hll]
    · intro htold
      simp [State.silenceEdge, htold]
    · intro older newer afn lost htold hqueue hnewer
      simp only [State.silenceEdge, State.trackOrder_report, State.moveTo_report, htold, if_true, hqueue]
      exact retellSilence_newest 0 older newer afn lost hnewer

end Sys2Proof.Machine
end

section
/-! The frame starts at which a threshold is met (R26, R34, R101, R102): what each leaves of the Membership Controller, of the
Mark Aligner and of the report queue. -/

namespace Sys2Proof.Machine

open Sys2Proof

/-! ## The pending withdrawal of a MEMBER (R101, R102, R104) -/

/-- A cause raised in MEMBER leaves a withdrawal pending: the first cause raised is kept (R104). -/
theorem State.raise_withdrawal {s : State} (hm : s.member.state = .member) (cause : WithdrawalCause) :
    (s.raise cause).member.withdrawal = some (s.member.withdrawal.getD cause) := by
  cases hw : s.member.withdrawal <;> simp [State.raise, Membership.raise, hm, hw]

theorem State.silenceStep_withdrawal (s : State) : s.silenceStep.member.withdrawal =
    if s.inputSilent (min (s.member.inputSilence + 1) 255) = true then some (s.member.withdrawal.getD .inputSilent)
    else s.member.withdrawal := by
  unfold State.silenceStep satSucc Config.missRunMax; dsimp only
  split
  · rename_i hsilent
    have hm : s.member.state = .member := by
      simp only [State.inputSilent, decide_eq_true_eq] at hsilent; exact hsilent.1
    exact State.raise_withdrawal (by exact hm) _
  · rfl

/-- In MEMBER only steps 3 and 5 of R101 act. -/
theorem State.memberFrameStart_of_member {s : State} {cause : FrameCause} (hc : cause ≠ .first)
    (hm : s.member.state = .member) (handed : Option Nat) (had : Bool) :
    s.memberFrameStart cause handed had =
      (if ∃ run, handed = some run ∧ 4 ≤ run then
        ({ s with member := { s.member with verdictLevel := none } } : State).raise .markLost
      else { s with member := { s.member with verdictLevel := none } }).silenceStep := by
  unfold State.memberFrameStart; rw [if_neg hc]
  generalize hx : ({ s with member := { s.member with verdictLevel := none } } : State) = x
  have hxm : x.member.state = .member := by subst hx; exact hm
  have hraised : (x.raise .markLost).member.state = .member := by rw [State.raise_member]; exact hxm
  have hmiss : x.missStep handed = if ∃ run, handed = some run ∧ 4 ≤ run then x.raise .markLost else x := by
    cases handed <;> simp [State.missStep, Config.markMissLimit, hxm]
  have hrejoin : x.rejoinStep = x := by simp [State.rejoinStep, hxm]
  have hrest : x.restStep = x := by simp [State.restStep, hxm]
  have hempty : (x.missStep handed).emptyStep had = x.missStep handed := by
    rw [hmiss]; split <;> simp [State.emptyStep, hxm, hraised]
  rw [hrejoin, hrest, hempty, hmiss]

/-- The pending withdrawal of a MEMBER after a frame start: the fourth miss is raised before the silent input (R101). -/
theorem State.memberFrameStart_withdrawal {s : State} {cause : FrameCause} (hc : cause ≠ .first)
    (hm : s.member.state = .member) (handed : Option Nat) (had : Bool) :
    ((∃ run, handed = some run ∧ 4 ≤ run) →
      (s.memberFrameStart cause handed had).member.withdrawal = some (s.member.withdrawal.getD .markLost)) ∧
    (¬(∃ run, handed = some run ∧ 4 ≤ run) →
      (s.memberFrameStart cause handed had).member.withdrawal =
        if s.inputSilent (min (s.member.inputSilence + 1) 255) = true then
          some (s.member.withdrawal.getD .inputSilent)
        else s.member.withdrawal) := by
  rw [State.memberFrameStart_of_member hc hm]
  refine ⟨fun hreached => ?_, fun hnot => ?_⟩
  · rw [if_pos hreached, State.silenceStep_withdrawal, State.raise_withdrawal (by exact hm)]
    simp
  · rw [if_neg hnot, State.silenceStep_withdrawal]
    rfl

/-- Only a station in LISTEN starts joining at seek silence (R100). -/
theorem State.markFrameStart_member_of_not_listen {s : State} (h : s.member.state ≠ .listen) (cause : FrameCause)
    (ended : TimebaseState) : (s.markFrameStart cause ended).member = s.member := by
  rw [State.markFrameStart_member, Membership.startJoining, if_neg h, ite_self]

/-- The Membership Controller's part of a frame start is what the frame start leaves of it. -/
theorem State.frameStart_member (s : State) (cause : FrameCause) (ended : TimebaseState) :
    (s.frameStart cause ended).member = ((s.markFrameStart cause ended).memberFrameStart cause
      (s.mark.handedMissRun cause ended) s.roster.results.isSome).member := (State.latchFrame_frame _).2.2.2.2.2.2.1

/-- A MEMBER stays MEMBER at a frame start, with the withdrawal that the fourth miss or the silent input makes pending (R34,
R101, R102, R104). -/
theorem State.frameStart_of_member {s : State} {cause : FrameCause} (hc : cause ≠ .first) (hm : s.member.state = .member)
    (ended : TimebaseState) :
    (s.frameStart cause ended).member.state = .member ∧
    (s.mark.began = .tracking → ended = .tracking → s.mark.onTime = false → 3 ≤ s.mark.missRun →
      (s.frameStart cause ended).member.withdrawal = some (s.member.withdrawal.getD .markLost)) ∧
    (s.mark.missRun < 3 → s.settings.inputTimeout ≠ 0 →
      s.settings.inputTimeout < min (s.member.inputSilence + 1) 255 →
      (s.frameStart cause ended).member.withdrawal = some (s.member.withdrawal.getD .inputSilent)) := by
  have hopened := State.markFrameStart_member_of_not_listen (s := s) (by simp [hm]) cause ended
  have hmopened : (s.markFrameStart cause ended).member.state = .member := by rw [hopened, hm]
  obtain ⟨hmissed, hsilent⟩ := State.memberFrameStart_withdrawal hc hmopened (s.mark.handedMissRun cause ended)
    s.roster.results.isSome
  rw [MarkAligner.handedMissRun_reaches_iff] at hmissed hsilent
  rw [State.frameStart_member]
  refine ⟨(State.memberFrameStart_member _ _ _ _).2 hmopened, fun hbegan hended htime hrun => ?_,
    fun hrun htimeout hcount => ?_⟩
  · rw [hmissed ⟨hc, hbegan, hended, htime, hrun⟩, hopened]
  · rw [hsilent (by omega), hopened, if_pos]
    simp [State.inputSilent, hmopened, htimeout, hcount]

/-! ## A station that stays in RESTING or PARKED (R101, R112) -/

/-- What a frame start counts of a station that stays in RESTING or PARKED. -/
theorem State.frameStart_member_resting_or_parked {s : State} {cause : FrameCause} (hc : cause ≠ .first)
    (hs : s.member.state = .resting ∧ 2 ≤ s.member.rest ∨ s.member.state = .parked ∧ s.member.rejoin = false)
    (ended : TimebaseState) :
    ¬s.entersListen (s.mark.handedMissRun cause ended) ∧
    (s.frameStart cause ended).member = { s.member with
      rest := if s.member.state = .resting then s.member.rest - 1 else s.member.rest
      verdictLevel := none
      inputSilence := min (s.member.inputSilence + 1) 255 } := by
  have hopened := State.markFrameStart_member_of_not_listen (s := s)
    (by rcases hs with ⟨h, -⟩ | ⟨h, -⟩ <;> simp [h]) cause ended
  have hstays : ¬s.entersListen (s.mark.handedMissRun cause ended) := by
    rw [State.entersListen_iff _ _ _ hc]
    rcases hs with ⟨h, hlong⟩ | ⟨h, hquiet⟩
    · simp [h]; omega
    · simp [h, hquiet]
  refine ⟨hstays, ?_⟩
  obtain ⟨w, hw, hstay⟩ := State.memberFrameStart_stay _ cause _ s.roster.results.isSome hc
    ((s.entersListen_markFrameStart_iff cause ended).not.2 hstays)
  rw [hopened] at hw hstay
  rw [State.frameStart_member, hstay]
  rcases hs with ⟨h, -⟩ | ⟨h, -⟩ <;> simp_all

/-! ## The threshold commands (log 16) -/

/-- Where its threshold is met, a threshold command is the whole natural frame start. -/
theorem State.frameStartWhen_met {s : State} {met : Bool} (hmet : met = true) (hwrap : s.tb.wrapMet = false) :
    s.frameStartWhen met = s.frameStart .natural s.tb.state := by
  rw [State.frameStartWhen, if_pos ⟨hmet, hwrap⟩, State.naturalFrameStart_eq hwrap]

/-- EVENT MARK_LOST at a natural frame start, with the state at the last pixel clock of the frame just ended (R34). -/
theorem State.frameStart_markLost_report {s : State} (h : s.mark.missReached .natural s.tb.state = true) :
    (s.frameStart .natural s.tb.state).report =
      s.report.post (.event (s.tb.afn + 1) (.markLost (s.tb.pixelState s.member.state))) := by
  have htracking : s.mark.countsMiss .natural s.tb.state = true := by
    simp only [MarkAligner.missReached, Bool.and_eq_true] at h; exact h.1.1
  rw [State.frameStart_report, (s.markFrameStart_report .natural s.tb.state).2.1 h
    (s.mark.countsMiss_tracking _ _ htracking)]
  simp [Timebase.frameStart]

/-- EVENT TRACKING of silence at a natural frame start (R26). -/
theorem State.frameStart_silence_report {s : State} (h : s.mark.silenceReached .natural s.tb.state = true) :
    (s.frameStart .natural s.tb.state).report = s.report.post (.event (s.tb.afn + 1) .trackingSilence) := by
  have hmiss : s.mark.missReached .natural s.tb.state = false := by
    rw [(s.mark.silenceReached_natural _ _ h).2.2.1]; exact s.mark.missReached_seeking _
  rw [State.frameStart_report, (s.markFrameStart_report .natural s.tb.state).2.2 hmiss h]
  simp [Timebase.frameStart]

/-- Settles O13: at the fourth miss the three kinds of station in turn, and then the silent input of a MEMBER. -/
theorem fourthMissAndSilentInputWithdraw : Obligations.FourthMissAndSilentInputWithdraw := by
  intro s last hr hwrap hlast
  have hafn := (s.frameStart_position .natural s.tb.state (by simp)).2.2.1
  have htable := (s.frameStart_frame .natural s.tb.state).2.1
  refine ⟨fun hstate hbegan htime hrun hroom => ?_, fun hm hrun htimeout hcount => ?_⟩
  · have hreached : s.mark.missReached .natural s.tb.state = true :=
      (s.mark.missReached_iff _ _).2 ⟨by simp, hbegan, hstate, htime, hrun⟩
    have hexec : exec .markLost s = .next (s.frameStart .natural s.tb.state) :=
      (exec_of_running hr rfl).trans (congrArg _ (State.frameStartWhen_met hreached hwrap))
    have hqueue : (s.frameStart .natural s.tb.state).report.queue =
        s.report.queue ++ [⟨.event (s.tb.afn + 1) (.markLost last), s.report.lost⟩] := by
      rw [State.frameStart_markLost_report hreached, ReportPort.post_room _ _ hroom, hlast]
      rfl
    have hfour (hstays : ¬s.entersListen (s.mark.handedMissRun .natural s.tb.state)) :
        (s.frameStart .natural s.tb.state).mark.missRun = 4 ∧
        (s.frameStart .natural s.tb.state).tb.state = .tracking := by
      obtain ⟨-, hmiss, -, -, -, -, -, hkept, -⟩ := s.naturalFrameStart_account hstays _ rfl
      exact ⟨(hmiss ⟨hbegan, hstate⟩).trans (by simp [htime, hrun]), (hkept (by simp [hbegan])).2.1.trans hstate⟩
    refine ⟨fun hm => ?_, fun hj => ?_, fun hs => ?_⟩
    · obtain ⟨hmember, hwithdrawal, -⟩ := State.frameStart_of_member (cause := .natural) (by simp) hm s.tb.state
      exact ⟨_, hexec, hafn, (hfour fun henters => State.entersListen_not_member henters hm).1, hmember,
        hwithdrawal hbegan hstate htime (by omega), htable, hqueue⟩
    · have henters : s.entersListen (s.mark.handedMissRun .natural s.tb.state) :=
        (s.entersListen_iff _ _ (by simp)).2 (Or.inl ⟨hj, hbegan, hstate, htime, by omega⟩)
      obtain ⟨htb, hmark, hroster, hmember⟩ := s.frameStart_listen .natural s.tb.state (by simp) henters
      exact ⟨_, hexec, hafn, by rw [hmember]; rfl, htb, by rw [hmark]; rfl, hroster, htable, hqueue⟩
    · obtain ⟨hstays, hmember⟩ := State.frameStart_member_resting_or_parked (cause := .natural) (by simp) hs s.tb.state
      obtain ⟨hmiss, htb⟩ := hfour hstays
      exact ⟨_, hexec, hafn, htb, hmiss, hmember, htable, hqueue⟩
  · have hdue : s.inputTimeoutDue = true := by
      simp [State.inputTimeoutDue, State.inputSilent, satSucc, Config.missRunMax, hm, htimeout, hcount]
    obtain ⟨hmember, -, hwithdrawal⟩ := State.frameStart_of_member (cause := .natural) (by simp) hm s.tb.state
    exact ⟨_, (exec_of_running hr rfl).trans (congrArg _ (State.frameStartWhen_met hdue hwrap)), hafn, hmember,
      hwithdrawal hrun htimeout hcount, (s.frameStart_member_counts _ _ (by simp)).2, htable⟩

/-- Seek silence starts tracking, and joining in LISTEN; a PARKED station stays so (R26, R100, R114). -/
theorem State.frameStart_silence {s : State} (hreached : s.mark.silenceReached .natural s.tb.state = true)
    (hs : s.member.state = .listen ∨ s.member.state = .parked ∧ s.member.rejoin = false) :
    (s.frameStart .natural s.tb.state).tb.state = .tracking ∧
    (s.frameStart .natural s.tb.state).mark.silenceCount = 0 ∧
    (s.frameStart .natural s.tb.state).mark.began = .tracking ∧
    (s.frameStart .natural s.tb.state).member.state = (if s.member.state = .listen then .joining else .parked) ∧
    (s.frameStart .natural s.tb.state).member.emptyRun =
      (if s.member.state = .listen then 0 else s.member.emptyRun) := by
  have hstays : ¬s.entersListen (s.mark.handedMissRun .natural s.tb.state) := by
    rw [State.entersListen_iff _ _ _ (by simp)]
    rcases hs with h | ⟨h, hquiet⟩
    · simp [h]
    · simp [h, hquiet]
  obtain ⟨htb, hmark, -, hstate, -, -, hempty⟩ := s.frameStart_stay .natural s.tb.state (by simp) hstays
  have hmember : (s.markFrameStart .natural s.tb.state).member = s.member.startJoining := by
    rw [State.markFrameStart_member, if_pos hreached]
  rw [hmember, Membership.startJoining_listen_or_parked (hs.imp_right And.left)] at hstate hempty
  rw [htb, hmark, State.markFrameStart_tb, State.markFrameStart_mark, if_pos hreached, if_pos hreached]
  refine ⟨rfl, rfl, rfl, hstate, hempty.trans ?_⟩
  rcases hs with h | ⟨h, -⟩ <;> simp [h]

/-- Settles O14: seek silence, the two ways to LISTEN at a frame start, and a rest that goes on. -/
theorem silenceAndRestRunOut : Obligations.SilenceAndRestRunOut := by
  intro s hr hwrap
  have hafn := (s.frameStart_position .natural s.tb.state (by simp)).2.2.1
  have htable := (s.frameStart_frame .natural s.tb.state).2.1
  have hnatural : exec .frameStart s = .next (s.frameStart .natural s.tb.state) :=
    (exec_of_running hr rfl).trans (congrArg _ (State.naturalFrameStart_eq hwrap))
  refine ⟨fun hs hstate hbegan hcount hroom => ?_, fun c hc => ?_, fun hresting hstate hlong => ?_⟩
  · have hreached : s.mark.silenceReached .natural s.tb.state = true :=
      (s.mark.silenceReached_iff _ _).2 ⟨⟨rfl, hbegan, hstate⟩, by omega⟩
    obtain ⟨htb, hcount, hbegan, hmember, hempty⟩ := State.frameStart_silence hreached hs
    refine ⟨_, (exec_of_running hr rfl).trans (congrArg _ (State.frameStartWhen_met hreached hwrap)), hafn, htb, hcount,
      hbegan, hmember, hempty, htable, ?_⟩
    rw [State.frameStart_silence_report hreached, ReportPort.post_room _ _ hroom]
  · have henters : s.entersListen (s.mark.handedMissRun .natural s.tb.state) :=
      (s.entersListen_iff _ _ (by simp)).2 (Or.inr (by
        rcases hc with ⟨-, h, hrest⟩ | ⟨-, h, hrejoin⟩
        · exact Or.inr ⟨h, by omega⟩
        · exact Or.inl ⟨h, hrejoin⟩))
    have hexec : exec c s = .next (s.frameStart .natural s.tb.state) := by
      rcases hc with ⟨rfl, h, hrest⟩ | ⟨rfl, -, -⟩
      · have hdue : s.restEndDue = true := by simp [State.restEndDue, h, hrest]
        exact (exec_of_running hr rfl).trans (congrArg _ (State.frameStartWhen_met hdue hwrap))
      · exact hnatural
    obtain ⟨htb, hmark, hroster, hmember⟩ := s.frameStart_listen .natural s.tb.state (by simp) henters
    have hstray := (s.frameStart_mark_kept .natural s.tb.state (by simp)).2.1
    rw [hmark] at hstray
    refine ⟨_, hexec, ?_⟩
    rw [htb, hmark, hroster, hmember]
    exact ⟨hafn, rfl, rfl, rfl, rfl, rfl, rfl, rfl, rfl, rfl, rfl, rfl, rfl, rfl, hstray, htable⟩
  · obtain ⟨hstays, hmember⟩ :=
      State.frameStart_member_resting_or_parked (cause := .natural) (by simp) (Or.inl ⟨hresting, hlong⟩) s.tb.state
    obtain ⟨-, -, -, -, -, -, -, hkept, -⟩ := s.naturalFrameStart_account hstays _ rfl
    refine ⟨_, hnatural, by rw [hmember]; exact hresting, by rw [hmember]; exact if_pos hresting, (hkept ?_).2.1⟩
    simp [hstate]

end Sys2Proof.Machine
end

section
/-! Talk slots: what a slot begin makes ready (R43, R45, R48, R73), and what the receiver makes of a settled cell in each phase
(R38, R49, R50). -/

namespace Sys2Proof.Machine

open Sys2Proof

/-! ## The heard map (R73) -/

/-- Setting the flags of the positions below `n` that `p` picks: flag `j` tells whether `p` picks it. -/
theorem getLsbD_foldl_setFlag (p : Nat → Prop) [DecidablePred p] (n j : Nat) (hj : j < 16) :
    ((List.range n).foldl (fun w k => if p k then w ||| (1#16 <<< k) else w) 0#16).getLsbD j =
      decide (j < n ∧ p j) := by
  induction n with
  | zero => simp
  | succ n ih =>
    have hflag : (1#16 <<< n).getLsbD j = decide (j = n) := by
      rw [BitVec.getLsbD_shiftLeft, BitVec.getLsbD_one]
      by_cases hlt : j < n
      · simp [hlt, show j ≠ n by omega]
      · simp only [hj, hlt]; grind
    rw [List.range_succ, List.foldl_append, List.foldl_cons, List.foldl_nil]
    by_cases hp : p n
    · rw [if_pos hp, BitVec.getLsbD_or, ih, hflag]
      by_cases hjn : j = n
      · simp [hjn, hp]
      · simp [hjn, show j < n + 1 ↔ j < n by omega]
    · rw [if_neg hp, ih]
      by_cases hjn : j = n
      · simp [hjn, hp]
      · simp [show j < n + 1 ↔ j < n by omega]

theorem Roster.getLsbD_heardMap (t : Roster) (j : Nat) (hj : j < 16) :
    t.heardMap.getLsbD j = decide ((t.entry j).previous = .heard) := by
  exact (getLsbD_foldl_setFlag (fun k => (t.entry k).previous = .heard) 16 j hj).trans (by simp [hj])

/-! ## Slot begin (R43, R45, R48) -/

theorem State.openReceiver_eq (s : State) : s.openReceiver =
    { s with link := if s.tb.state = .tracking then s.link.resetReceiver else s.link } := by
  unfold State.openReceiver; split <;> rfl

theorem State.openTransmitter_eq (s : State) (slot : Nat) : s.openTransmitter slot = { s with
    link := if slot = s.own then
        if s.mayDrive = true then s.link.startSending s.snapshotNow.bytes else s.link.staySilent
      else s.link } := by
  unfold State.openTransmitter
  repeat' split
  all_goals rfl

/-- A slot that has begun, with the receiver as R48 leaves it and the transmitter still to be made ready. -/
def State.slotOpened (s : State) (slot : Nat) : State :=
  { s with
    tb := { (s.moveTo (s.settings.slotFirstLine slot) 1).tb with openSlot := some slot }
    link := if s.tb.state = .tracking then s.link.resetReceiver else s.link }

theorem State.slotBegin_eq {s : State} {slot : Nat} (h : slot < s.settings.n) :
    s.slotBegin slot = (s.slotOpened slot).openTransmitter slot := by
  have hstate : (s.moveTo (s.settings.slotFirstLine slot) 1).tb.state = s.tb.state := (s.moveTo_kept _ _).1
  unfold State.slotBegin State.slotOpened
  rw [if_pos h]
  dsimp only
  rw [State.openReceiver_eq]
  dsimp only
  rw [hstate]
  rfl

/-- What the transmitter does at a slot begin leaves the receiver alone. -/
theorem State.openTransmitter_receiver (s : State) (slot : Nat) :
    (s.openTransmitter slot).link.rx = s.link.rx ∧ (s.openTransmitter slot).link.received = s.link.received ∧
    (s.openTransmitter slot).link.expected = s.link.expected ∧
    (s.openTransmitter slot).link.activity = s.link.activity := by
  rw [s.openTransmitter_eq]
  dsimp only
  repeat' split
  all_goals exact ⟨rfl, rfl, rfl, rfl⟩

/-- What is done to the receiver at a slot begin leaves the transmitter and the input-alive latch alone. -/
theorem State.slotOpened_transmitter (s : State) (slot : Nat) : (s.slotOpened slot).link.tx = s.link.tx ∧
    (s.slotOpened slot).link.snapshot = s.link.snapshot ∧ (s.slotOpened slot).link.inputAlive = s.link.inputAlive := by
  unfold State.slotOpened
  dsimp only
  split <;> exact ⟨rfl, rfl, rfl⟩

theorem State.slotOpened_mayDrive (s : State) (slot : Nat) : (s.slotOpened slot).mayDrive = s.mayDrive := by
  simp only [State.slotOpened, State.mayDrive, (s.moveTo_kept _ _).1]

/-- The snapshot taken at a slot begin carries what the state held before it (R45, R73). -/
theorem State.snapshotNow_slotOpened (s : State) (slot : Nat) : (s.slotOpened slot).snapshotNow = s.snapshotNow := by
  obtain ⟨-, -, halive⟩ := s.slotOpened_transmitter slot
  unfold State.snapshotNow
  rw [halive]
  simp only [State.slotOpened, (s.moveTo_kept _ _).2.1]

/-- The computed fields of Table 3-2 in a station's snapshot (R45, R73). -/
theorem State.snapshotNow_fields (s : State) :
    (s.member.state = .joining → s.snapshotNow.heard.state = .joining) ∧
    (s.member.state = .member → s.snapshotNow.heard.state = .member) ∧
    (s.member.state = .parked → s.snapshotNow.heard.state = .parked) ∧
    (∀ j < 16, s.snapshotNow.heard.heardMap.getLsbD j = decide ((s.roster.entry j).previous = .heard)) ∧
    (s.snapshotNow.readyFull = true ↔ s.table.readyQueue.length = 3) ∧
    (s.snapshotNow.withdrawPending = true ↔ s.member.withdrawal ≠ none) := by
  have hstate : s.snapshotNow.heard.state = s.member.state.announced := rfl
  refine ⟨fun h => ?_, fun h => ?_, fun h => ?_, s.roster.getLsbD_heardMap, decide_eq_true_iff, ?_⟩
  · rw [hstate, h]; rfl
  · rw [hstate, h]; rfl
  · rw [hstate, h]; rfl
  · exact Option.isSome_iff_ne_none

/-- Settles O21: the counters and the receiver, and the transmitter of the own slot, with and without permission, and of any
other. -/
theorem slotBeginReadiesReceiverAndSender : Obligations.SlotBeginReadiesReceiverAndSender := by
  intro s slot hr hslot hll htw hfl
  have hop := State.slotBegin_eq hslot
  have htransmit := (s.slotOpened slot).openTransmitter_eq slot
  have hown : (s.slotOpened slot).own = s.own := rfl
  rw [s.slotOpened_mayDrive, s.snapshotNow_slotOpened, hown] at htransmit
  obtain ⟨htx, hsnapshot, -⟩ := s.slotOpened_transmitter slot
  refine ⟨(s.slotOpened slot).openTransmitter slot, (exec_of_running hr rfl).trans (congrArg _ hop), ?_, ?_,
    fun htracking => ?_, fun hslot htracking hstate => ?_, fun hslot hforbidden => ?_, fun hother => ?_⟩
  · rw [htransmit]; rfl
  · have hmove := s.moveTo_inside (s.settings.slotFirstLine slot) 1 (Nat.le_add_right_of_le htw) hfl (by omega) hll
    rw [htransmit]
    dsimp only [State.slotOpened]
    rw [hmove]
    rfl
  · obtain ⟨hrx, hreceived, hexpected, hactivity⟩ := (s.slotOpened slot).openTransmitter_receiver slot
    have hreset : (s.slotOpened slot).link = s.link.resetReceiver := if_pos htracking
    rw [hrx, hreceived, hexpected, hactivity, hreset]
    exact ⟨rfl, rfl, rfl, rfl⟩
  · have hmay : s.mayDrive = true := (s.mayDrive_iff).2 ⟨htracking, hstate⟩
    rw [htransmit, if_pos hslot, if_pos hmay]
    obtain ⟨hjoining, hmember, hparked, hmap, hfull, hpending⟩ := s.snapshotNow_fields
    exact ⟨rfl, rfl, rfl, s.snapshotNow, rfl, rfl, rfl, hjoining, hmember, hparked, rfl, rfl, hmap, hfull, rfl, hpending⟩
  · have hmay : ¬s.mayDrive = true := fun h => hforbidden ((s.mayDrive_iff).1 h)
    rw [htransmit, if_pos hslot, if_neg hmay]
    exact ⟨rfl, rfl⟩
  · rw [htransmit, if_neg hother]
    exact ⟨htx, hsnapshot⟩

/-! ## A settled cell, by the receive phase (R38, R49, R50) -/

/-- What every settled cell does to the receiver, whatever its phase: activity is noted (R49). -/
def LinkInterface.see (l : LinkInterface) (level : Level) : LinkInterface :=
  { l with activity := l.activity || decide (level = .low), cellSamples := [] }

/-- A low cell opens a character. -/
theorem LinkInterface.receiveCell_start {l : LinkInterface} (h : l.rx = .waiting ∨ l.rx = .between) :
    l.receiveCell .low = { l.see .low with rx := .inCharacter 1 [] .low } := by
  cases l; dsimp only at h
  rcases h with rfl | rfl <;> rfl

/-- A high cell outside a character changes no phase. -/
theorem LinkInterface.receiveCell_idle {l : LinkInterface} (h : l.rx = .waiting ∨ l.rx = .between ∨ l.rx = .complete) :
    l.receiveCell .high = l.see .high := by
  cases l; dsimp only at h
  rcases h with rfl | rfl | rfl <;> rfl

/-- A low cell after a complete message breaks the reception. -/
theorem LinkInterface.receiveCell_complete_low {l : LinkInterface} (h : l.rx = .complete) :
    l.receiveCell .low = { l.see .low with rx := .broken } := by
  cases l; dsimp only at h; subst h; rfl

theorem LinkInterface.receiveCell_broken {l : LinkInterface} (h : l.rx = .broken) (level : Level) :
    l.receiveCell level = l.see level := by
  cases l; dsimp only at h; subst h; rfl

theorem LinkInterface.receiveCell_character {l : LinkInterface} {k : Nat} {bits : List Bool} {lead : Level}
    (h : l.rx = .inCharacter k bits lead) (level : Level) :
    l.receiveCell level = (l.see level).characterStep k bits lead level := by
  cases l; dsimp only at h; subst h; rfl

theorem LinkInterface.characterStep_data (l : LinkInterface) {k : Nat} (hk : k ≤ 8) (bits : List Bool)
    (lead level : Level) :
    l.characterStep k bits lead level =
      { l with rx := .inCharacter (k + 1) (bits ++ [decide (level = .high)]) lead } := if_pos hk

theorem LinkInterface.characterStep_lead (l : LinkInterface) (bits : List Bool) (lead level : Level) :
    l.characterStep 9 bits lead level = { l with rx := .inCharacter 10 bits level } := rfl

theorem LinkInterface.characterStep_stop_low (l : LinkInterface) (bits : List Bool) (lead : Level) :
    l.characterStep 10 bits lead .low = { l with rx := .broken } := rfl

theorem LinkInterface.characterStep_stop_high (l : LinkInterface) (bits : List Bool) (lead : Level) :
    l.characterStep 10 bits lead .high = l.endCharacter (byteOfBits bits) lead := rfl

theorem LinkInterface.endCharacter_activity (l : LinkInterface) (byte : Byte) (lead : Level) :
    (l.endCharacter byte lead).activity = l.activity := by
  unfold LinkInterface.endCharacter
  by_cases hlead : lead = (if l.received.isEmpty then Level.high else Level.low)
  · rw [if_pos hlead]
  · rw [if_neg hlead]

theorem LinkInterface.characterStep_activity (l : LinkInterface) (k : Nat) (bits : List Bool) (lead level : Level) :
    (l.characterStep k bits lead level).activity = l.activity := by
  unfold LinkInterface.characterStep
  split
  · rfl
  · split
    · rfl
    · split
      · rfl
      · exact LinkInterface.endCharacter_activity _ _ _

/-- Every phase notes the activity of a low cell (R49). -/
theorem LinkInterface.receiveCell_activity (l : LinkInterface) (level : Level) :
    (l.receiveCell level).activity = (l.activity || decide (level = .low)) := by
  cases hrx : l.rx with
  | inCharacter k bits lead =>
    rw [LinkInterface.receiveCell_character hrx, LinkInterface.characterStep_activity]
    rfl
  | broken => rw [LinkInterface.receiveCell_broken hrx]; rfl
  | waiting =>
    cases level with
    | low => rw [LinkInterface.receiveCell_start (Or.inl hrx)]; rfl
    | high => rw [LinkInterface.receiveCell_idle (Or.inl hrx)]; rfl
  | between =>
    cases level with
    | low => rw [LinkInterface.receiveCell_start (Or.inr hrx)]; rfl
    | high => rw [LinkInterface.receiveCell_idle (Or.inr (Or.inl hrx))]; rfl
  | complete =>
    cases level with
    | low => rw [LinkInterface.receiveCell_complete_low hrx]; rfl
    | high => rw [LinkInterface.receiveCell_idle (Or.inr (Or.inr hrx))]; rfl

/-- The lead cell that the next character calls for: high in the first character of a message alone (R49). -/
def LinkInterface.leadDue (l : LinkInterface) : Level := if l.received = [] then Level.high else Level.low

/-- A character whose lead cell is wrong breaks the reception (R49). -/
theorem LinkInterface.endCharacter_wrong_lead (l : LinkInterface) (byte : Byte) {lead : Level} (h : lead ≠ l.leadDue) :
    l.endCharacter byte lead = { l with rx := .broken } := by
  unfold LinkInterface.endCharacter LinkInterface.leadDue at *
  simp only [List.isEmpty_iff]
  exact if_neg h

/-- A character whose lead cell is right is received: the seventh gives the count and with it the length, and a message is complete
at its length (R49, R50). -/
theorem LinkInterface.endCharacter_right_lead (l : LinkInterface) (byte : Byte) {lead : Level} (h : lead = l.leadDue) :
    l.endCharacter byte lead = { l with
      received := l.received ++ [byte]
      expected := if l.received.length = 6 ∧ byte.toNat ≤ 3 then some (11 + 2 * byte.toNat) else l.expected
      rx :=
        if l.received.length = 6 then if 3 < byte.toNat then .broken else .between
        else if l.expected = some (l.received.length + 1) then .complete
        else .between } := by
  unfold LinkInterface.endCharacter LinkInterface.leadDue at *
  simp only [List.isEmpty_iff]
  rw [if_pos h]
  simp only [List.length_append, List.length_singleton, Nat.reduceEqDiff]
  by_cases hsix : l.received.length = 6
  · by_cases hcount : byte.toNat ≤ 3
    · have hlate : ¬3 < byte.toNat := by omega
      have hlen : 11 + 2 * byte.toNat ≠ 7 := by omega
      simp [hsix, hcount, hlate, hlen]
    · have hlate : 3 < byte.toNat := by omega
      simp [hsix, hcount, hlate]
  · simp [hsix]

/-- The level of two samples at least (R38). -/
theorem Samples.level_low_iff (c : Samples) : c.level = .low ↔ c.first = .low ∧ c.middle = .low ∨
    c.first = .low ∧ c.last = .low ∨ c.middle = .low ∧ c.last = .low := by
  obtain ⟨a, b, d⟩ := c
  cases a <;> cases b <;> cases d <;> decide

/-- In a TRACKING frame a settled cell of the open slot reaches the receiver as the slot's cells before it left it. -/
theorem State.talkCell_receives {s : State} {slot cell : Nat} (hopen : s.tb.openSlot = some slot)
    (htracking : s.tb.state = .tracking) (hcell : cell < s.settings.slotCapacity) (samples : Samples) :
    ∃ l : LinkInterface, s.talkCell cell samples = { s with
        tb := (s.moveInSlot slot (s.settings.cellSettled cell)).tb
        link := l.receiveCell samples.level } ∧
      l.rx = s.link.rx ∧ l.received = s.link.received ∧ l.expected = s.link.expected ∧
      l.activity = s.link.activity := by
  refine ⟨((s.moveInSlot slot (s.settings.cellSettled cell)).placeTransmitter slot cell).link, ?_, ?_⟩
  · unfold State.talkCell State.placeTransmitter
    rw [hopen]
    dsimp only
    rw [if_pos ⟨htracking, hcell⟩]
    split <;> rfl
  · unfold State.placeTransmitter LinkInterface.placeTransmitter
    repeat' split
    all_goals exact ⟨rfl, rfl, rfl, rfl⟩

/-- Settles O22: the receiver's phases in the order of the statement. -/
theorem receiverFollowsThePhaseTable : Obligations.ReceiverFollowsThePhaseTable := by
  intro s slot cell samples hr hopen htracking hcell
  obtain ⟨l, htalk, hrx, hreceived, hexpected, hactivity⟩ := State.talkCell_receives hopen htracking hcell samples
  obtain ⟨-, hafn, hslot, -⟩ := s.moveToEnd_kept (s.settings.slotLine slot (s.settings.cellSettled cell))
    (s.settings.slotPixel (s.settings.cellSettled cell))
  rw [← hrx, ← hreceived, ← hexpected, ← hactivity]
  refine ⟨_, (exec_of_running hr rfl).trans (congrArg _ htalk), rfl, hafn, hslot.trans hopen, Samples.level_low_iff samples,
    ?_, fun hphase hlow => ?_, fun hphase hhigh => ?_, fun hphase hlow => ?_, fun hphase => ?_,
    fun k bits lead hphase => ⟨fun hk => ?_, fun hk => ?_, fun hk hlow => ?_, fun hk hhigh hlead => ?_,
      fun hk hhigh hlead => ?_⟩⟩
  · simp [LinkInterface.receiveCell_activity]
  · rw [hlow, LinkInterface.receiveCell_start hphase]
    exact ⟨rfl, rfl⟩
  · rw [hhigh, LinkInterface.receiveCell_idle hphase]
    exact ⟨rfl, rfl⟩
  · rw [hlow, LinkInterface.receiveCell_complete_low hphase]
  · rw [LinkInterface.receiveCell_broken hphase]
    exact ⟨hphase, rfl⟩
  · rw [LinkInterface.receiveCell_character hphase, LinkInterface.characterStep_data _ hk]
    exact ⟨rfl, rfl⟩
  · rw [LinkInterface.receiveCell_character hphase, hk, LinkInterface.characterStep_lead]
    exact ⟨rfl, rfl⟩
  · rw [LinkInterface.receiveCell_character hphase, hk, hlow, LinkInterface.characterStep_stop_low]
    exact ⟨rfl, rfl⟩
  · rw [LinkInterface.receiveCell_character hphase, hk, hhigh, LinkInterface.characterStep_stop_high,
      LinkInterface.endCharacter_wrong_lead (l.see .high) _ hlead]
    exact ⟨rfl, rfl⟩
  · rw [LinkInterface.receiveCell_character hphase, hk, hhigh, LinkInterface.characterStep_stop_high,
      LinkInterface.endCharacter_right_lead (l.see .high) _ hlead]
    have hsee : (l.see .high).received = l.received ∧ (l.see .high).expected = l.expected := ⟨rfl, rfl⟩
    simp only [hsee, List.length_append, List.length_singleton, Nat.reduceEqDiff, true_and]
    refine ⟨fun hseven hbig => ?_, fun hseven hsmall => ?_, fun hother => ?_, fun hother hlast => ?_,
      fun hother hlast => ?_⟩
    · simp [hseven, hbig]
    · simp [hseven, hsmall, show ¬3 < (byteOfBits bits).toNat by omega]
    · simp [show l.received.length ≠ 6 by omega]
    · simp [show l.received.length ≠ 6 by omega, hlast]
    · simp [show l.received.length ≠ 6 by omega, hlast]

end Sys2Proof.Machine
end

section
/-! The uncut end of a talk slot: its outcome and its roster entry (R52, R54, R61, R62). -/

namespace Sys2Proof.Machine

open Sys2Proof

/-! ## One entry of the roster -/

theorem Roster.entry_modify {t : Roster} {i : Nat} (hi : i < t.entries.length) (f : RosterEntry → RosterEntry) :
    ({ t with entries := t.entries.modify i f } : Roster).entry i = f (t.entry i) := by
  simp [Roster.entry, hi]

theorem Roster.entry_modify_other (t : Roster) {i j : Nat} (hj : j ≠ i) (f : RosterEntry → RosterEntry) :
    ({ t with entries := t.entries.modify i f } : Roster).entry j = t.entry j := by
  simp [Roster.entry, hj.symm]

/-! ## What an outcome does to the roster and the readback (R54, R61, R62) -/

theorem State.takeOutcome_heard {s : State} {i : Nat} (hi : i < s.roster.entries.length) (o : SlotOutcome)
    (a : Announcement) :
    (s.takeOutcome i o (some a)).roster.entry i = (s.roster.entry i).hear a s.tb.afn :=
  Roster.entry_modify hi _

theorem State.takeOutcome_notHeard {s : State} {i : Nat} (hi : i < s.roster.entries.length) (o : SlotOutcome) :
    (s.takeOutcome i o none).roster.entry i = (s.roster.entry i).notHeard o :=
  Roster.entry_modify hi _

theorem State.takeOutcome_other (s : State) {i j : Nat} (hj : j ≠ i) (o : SlotOutcome) (record : Option Announcement) :
    (s.takeOutcome i o record).roster.entry j = s.roster.entry j := by
  cases record <;> exact Roster.entry_modify_other _ hj _

/-- The entry of the slot, and with it the readback, tells the outcome that the slot end settles. -/
theorem State.takeOutcome_outcome {s : State} {i : Nat} (hi : i < s.roster.entries.length) {o : SlotOutcome}
    {record : Option Announcement} (h : o = .heard ↔ record.isSome = true) :
    ((s.takeOutcome i o record).roster.entry i).outcome = o := by
  cases record with
  | none => rw [State.takeOutcome_notHeard hi]; rfl
  | some a => rw [State.takeOutcome_heard hi]; exact (h.2 rfl).symm

/-- An outcome writes the roster's entries and the readback, and nothing else. -/
theorem State.takeOutcome_eq (s : State) (i : Nat) (o : SlotOutcome) (record : Option Announcement) :
    s.takeOutcome i o record = { s with
      link := { s.link with readback := if i = s.own then o else s.link.readback }
      roster := { s.roster with entries := (s.takeOutcome i o record).roster.entries } } := by
  cases record <;> rfl

/-! ## The record and the outcome of an uncut slot end (R52, R54) -/

theorem State.slotRecord_eq_some_iff (s : State) (i : Nat) (a : Announcement) : s.slotRecord i = some a ↔
    ¬(i = s.own ∧ s.link.tx = .idle) ∧ s.link.rx = .complete ∧ parseAnnouncement i s.link.received = some a := by
  unfold State.slotRecord State.silentIn LinkInterface.heardRecord
  by_cases hsilent : i = s.own ∧ s.link.tx = .idle
  · simp [hsilent]
  · simp [hsilent]

theorem State.slotRecord_eq_none_iff (s : State) (i : Nat) : s.slotRecord i = none ↔
    i = s.own ∧ s.link.tx = .idle ∨ ¬(s.link.rx = .complete ∧ (parseAnnouncement i s.link.received).isSome = true) := by
  unfold State.slotRecord State.silentIn LinkInterface.heardRecord
  by_cases hsilent : i = s.own ∧ s.link.tx = .idle
  · simp [hsilent]
  · by_cases hcomplete : s.link.rx = .complete
    · simp [hsilent, hcomplete]
    · simp [hcomplete]

/-- Without a record the outcome is SILENT where the line stayed released, and DAMAGED otherwise, also in the own slot of a
station that did not transmit (R52, R54). -/
theorem State.slotOutcome_without_record {s : State} {i : Nat} (h : s.slotRecord i = none) :
    s.slotOutcome i = if s.link.rx = .waiting ∧ s.link.activity = false then .silent else .damaged := by
  cases hrecord : s.link.heardRecord i with
  | none =>
    have houtcome : s.link.outcome i =
        if s.link.rx = .waiting ∧ s.link.activity = false then .silent else .damaged := by
      simp [LinkInterface.outcome, hrecord]
    have hne : s.link.outcome i ≠ .heard := by rw [houtcome]; split <;> simp
    rw [← houtcome]
    exact if_neg fun hheard => hne hheard.2
  | some a =>
    have hsilent : s.silentIn i = true := by
      by_contra hnot
      simp [State.slotRecord, hnot, hrecord] at h
    have hcomplete : s.link.rx = .complete := by
      by_contra hnot
      simp [LinkInterface.heardRecord, hnot] at hrecord
    simp [State.slotOutcome, LinkInterface.outcome, hsilent, hrecord, hcomplete]

/-! ## The slot end -/

/-- The end of the open slot in a TRACKING frame hands the outcome that the receiver holds at it (R52). -/
theorem State.slotEnd_tracking {s : State} {slot : Nat} (hopen : s.tb.openSlot = some slot)
    (htracking : s.tb.state = .tracking) : ∃ tb : Timebase, tb.openSlot = none ∧ tb.afn = s.tb.afn ∧
      s.slotEnd slot = ({ s with tb := tb } : State).takeOutcome slot (s.slotOutcome slot) (s.slotRecord slot) := by
  obtain ⟨hstate, hafn, -, -⟩ := s.moveToEnd_kept (s.settings.slotLastLine slot) s.settings.ll
  refine ⟨{ (s.moveToEnd (s.settings.slotLastLine slot) s.settings.ll).tb with openSlot := none }, rfl, hafn, ?_⟩
  unfold State.slotEnd State.endSlot
  rw [if_pos hopen]
  exact if_pos (hstate.trans htracking)

/-- In a SEEKING frame a slot end closes the slot, and no outcome is handed (R48). -/
theorem State.slotEnd_seeking {s : State} {slot : Nat} (hopen : s.tb.openSlot = some slot)
    (hseeking : s.tb.state = .seeking) : ∃ tb : Timebase, tb.openSlot = none ∧ s.slotEnd slot = { s with tb := tb } := by
  obtain ⟨hstate, -⟩ := s.moveToEnd_kept (s.settings.slotLastLine slot) s.settings.ll
  refine ⟨{ (s.moveToEnd (s.settings.slotLastLine slot) s.settings.ll).tb with openSlot := none }, rfl, ?_⟩
  unfold State.slotEnd State.endSlot
  rw [if_pos hopen]
  exact if_neg (by rw [hstate, hseeking]; simp)

/-- RECORD_EXPIRY is the slot end where the eighth frame without HEARD ends (R62; log 16). -/
theorem State.expiryDue_of_seven {s : State} {slot : Nat} (htracking : s.tb.state = .tracking)
    (hrecord : s.slotRecord slot = none) (hseven : (s.roster.entry slot).missRun = 7) : s.expiryDue slot = true := by
  have hne : s.slotOutcome slot ≠ .heard := by
    rw [Ne, s.slotOutcome_heard_iff, hrecord]; simp
  simp [State.expiryDue, htracking, hne, hseven, Config.recordExpiry]

/-- Settles O24: the slot end in a TRACKING frame, with a record and without, the expiry, and the SEEKING frame. -/
theorem slotEndRecordsTheOutcome : Obligations.SlotEndRecordsTheOutcome := by
  intro s slot hr hopen hslot hlength
  have hi (tb : Timebase) : slot < ({ s with tb := tb } : State).roster.entries.length := hlength.symm ▸ hslot
  refine ⟨fun htracking => ?_, fun htracking hseven hunheard => ?_, fun hseeking => ?_⟩
  · obtain ⟨tb, hclosed, hafn, hend⟩ := State.slotEnd_tracking hopen htracking
    refine ⟨_, (exec_of_running hr rfl).trans (congrArg _ hend), State.takeOutcome_eq _ _ _ _, hclosed, hafn,
      fun j _ hj => State.takeOutcome_other _ hj _ _, fun a hsent hrx hparse => ?_, fun hunheard => ?_, ?_⟩
    · rw [(s.slotRecord_eq_some_iff slot a).2 ⟨hsent, hrx, hparse⟩, State.takeOutcome_heard (hi tb)]
      rw [← hafn]; rfl
    · have hrecord := (s.slotRecord_eq_none_iff slot).2 hunheard
      rw [hrecord, State.takeOutcome_notHeard (hi tb), State.slotOutcome_without_record hrecord]
      rfl
    · rw [State.takeOutcome_outcome (hi tb) (s.slotOutcome_heard_iff slot), State.takeOutcome_eq]
      rfl
  · obtain ⟨tb, -, -, hend⟩ := State.slotEnd_tracking hopen htracking
    have hrecord := (s.slotRecord_eq_none_iff slot).2 hunheard
    have hexpiry : exec (.recordExpiry slot) s = .next (s.slotEnd slot) :=
      (exec_of_running hr rfl).trans (congrArg _ (if_pos (State.expiryDue_of_seven htracking hrecord hseven)))
    refine ⟨_, hexpiry.trans (congrArg _ hend), State.takeOutcome_eq _ _ _ _,
      fun j _ hj => State.takeOutcome_other _ hj _ _, ?_⟩
    rw [hrecord, State.takeOutcome_notHeard (hi tb)]
    simp [RosterEntry.notHeard, RosterEntry.miss, satSucc, Config.missRunMax, Config.recordExpiry, hseven]
  · obtain ⟨tb, hclosed, hend⟩ := State.slotEnd_seeking hopen hseeking
    exact ⟨_, (exec_of_running hr rfl).trans (congrArg _ hend), rfl, hclosed⟩

end Sys2Proof.Machine
end

section
/-! The announcement as bytes and fields: what its message holds where (R45, R183, R184), and which messages are valid
announcements (R50, R51). -/

namespace Sys2Proof.Machine

open Sys2Proof

/-! ## Bytes and fields of a message -/

/-- Byte `k` of a message as a number; past the end it reads as 0. -/
def byteAt (message : List Byte) (k : Nat) : Nat := ((message[k]?).getD 0).toNat

/-- The 16-bit field whose high byte is byte `k`, as a number. -/
def wordAt (message : List Byte) (k : Nat) : Nat := 256 * byteAt message k + byteAt message (k + 1)

theorem words16_flatMap_bytes16 (l : List (BitVec 16)) : words16 (l.flatMap bytes16) = l := by
  induction l with
  | nil => rfl
  | cons w l ih =>
    have hw : word16 (hiByte w) (loByte w) = w :=
      BitVec.eq_of_toNat_eq (by rw [word16_toNat, bytes16_toNat])
    rw [List.flatMap_cons]
    change word16 (hiByte w) (loByte w) :: words16 (l.flatMap bytes16) = w :: l
    rw [hw, ih]

theorem words16_take (l : List Byte) (k : Nat) : words16 (l.take (2 * k)) = (words16 l).take k := by
  fun_induction words16 l generalizing k with
  | case1 hi lo rest ih =>
    cases k with
    | zero => rfl
    | succ k => simp [Nat.mul_succ, words16, ih]
  | case2 l h =>
    rcases l with _ | ⟨x, _ | ⟨y, r⟩⟩
    · simp [words16]
    · cases k <;> simp [Nat.mul_succ, words16]
    · exact absurd rfl (h x y r)

theorem words16_drop (l : List Byte) (k : Nat) : words16 (l.drop (2 * k)) = (words16 l).drop k := by
  fun_induction words16 l generalizing k with
  | case1 hi lo rest ih =>
    cases k with
    | zero => rfl
    | succ k => simp [Nat.mul_succ, ih]
  | case2 l h =>
    rcases l with _ | ⟨x, _ | ⟨y, r⟩⟩
    · simp [words16]
    · cases k <;> simp [Nat.mul_succ, words16]
    · exact absurd rfl (h x y r)

/-- The fields of Table 13-1 that stand before the ready list take seven bytes; the rest of a message is fields of 16 bits. -/
theorem wordAt_of_words16 {message rest : List Byte} (h : message.drop 7 = rest) {k : Nat} {w : BitVec 16}
    (hw : (words16 rest)[k]? = some w) : wordAt message (7 + 2 * k) = w.toNat := by
  have hk : 2 * k + 1 < rest.length := by
    have hlt := (List.getElem?_eq_some_iff.1 hw).1
    rw [length_words16] at hlt
    omega
  rw [words16_getElem? rest k hk, Option.some.injEq] at hw
  subst h
  rw [← hw, word16_toNat, List.getElem?_drop, List.getElem?_drop]
  rfl

/-! ## The bytes of an announcement (Table 13-1) -/

/-- The fields of 16 bits at the end of an announcement: the ready list, the heard map and the check field. -/
def Snapshot.fields (a : Snapshot) : List (BitVec 16) := a.heard.ready ++ [a.heard.heardMap, crc16 lsbFirst a.body]

theorem Snapshot.bytes_eq (a : Snapshot) : a.bytes =
    [(0xA#4 ++ a.sender : BitVec 8), hiByte a.heard.afn, loByte a.heard.afn, a.stateByte,
      hiByte (a.heard.shown.getD 0), loByte (a.heard.shown.getD 0), BitVec.ofNat 8 a.heard.ready.length] ++
      a.fields.flatMap bytes16 := by
  simp [Snapshot.bytes, Snapshot.body, Snapshot.fields, withCheck, bytes16]

theorem Snapshot.length_bytes (a : Snapshot) : a.bytes.length = 11 + 2 * a.heard.ready.length := by
  rw [a.bytes_eq, List.length_append, length_flatMap_bytes16]
  simp [Snapshot.fields]
  omega

theorem Snapshot.length_body (a : Snapshot) : a.body.length = 9 + 2 * a.heard.ready.length := by
  have hlen := a.length_bytes
  simp only [Snapshot.bytes, withCheck, bytes16, List.length_append, List.length_cons, List.length_nil] at hlen
  omega

theorem Snapshot.take_bytes (a : Snapshot) : a.bytes.take (9 + 2 * a.heard.ready.length) = a.body :=
  List.take_left' a.length_body

theorem Snapshot.wordAt_fields (a : Snapshot) {k : Nat} {w : BitVec 16} (h : a.fields[k]? = some w) :
    wordAt a.bytes (7 + 2 * k) = w.toNat := by
  have hrest : a.bytes.drop 7 = a.fields.flatMap bytes16 := by rw [a.bytes_eq]; rfl
  exact wordAt_of_words16 hrest (by rw [words16_flatMap_bytes16]; exact h)

/-- Byte 0: the kind 0xA and the sender. -/
theorem Snapshot.byteAt_kind (a : Snapshot) : byteAt a.bytes 0 = 16 * 0xA + a.sender.toNat := by
  have hbyte : byteAt a.bytes 0 = (0xA#4 ++ a.sender : BitVec 8).toNat := by rw [a.bytes_eq]; rfl
  rw [hbyte]
  generalize a.sender = sender
  revert sender
  decide

theorem Snapshot.wordAt_afn (a : Snapshot) : wordAt a.bytes 1 = a.heard.afn.toNat := by
  rw [← bytes16_toNat, a.bytes_eq]; rfl

theorem Snapshot.wordAt_shown (a : Snapshot) : wordAt a.bytes 4 = (a.heard.shown.getD 0).toNat := by
  rw [← bytes16_toNat, a.bytes_eq]; rfl

theorem Snapshot.byteAt_count (a : Snapshot) (h : a.heard.ready.length ≤ 3) :
    byteAt a.bytes 6 = a.heard.ready.length := by
  have hbyte : byteAt a.bytes 6 = (BitVec.ofNat 8 a.heard.ready.length).toNat := by rw [a.bytes_eq]; rfl
  rw [hbyte, BitVec.toNat_ofNat, Nat.mod_eq_of_lt (by omega)]

/-- A state code below four flags. -/
theorem toNat_flags_append (pending alive full present : Bool) (code : BitVec 4) :
    (BitVec.ofBool pending ++ BitVec.ofBool alive ++ BitVec.ofBool full ++ BitVec.ofBool present ++ code :
      BitVec 8).toNat = code.toNat + (if present = true then 16 else 0) + (if full = true then 32 else 0) +
        (if alive = true then 64 else 0) + (if pending = true then 128 else 0) := by
  revert pending alive full present code
  decide

/-- Byte 3: the state code and the four flags. -/
theorem Snapshot.byteAt_state (a : Snapshot) : byteAt a.bytes 3 = a.heard.state.code.toNat +
    (if a.heard.shown = none then 0 else 16) + (if a.readyFull = true then 32 else 0) +
    (if a.inputAlive = true then 64 else 0) + (if a.withdrawPending = true then 128 else 0) := by
  have hbyte : byteAt a.bytes 3 = a.stateByte.toNat := by rw [a.bytes_eq]; rfl
  rw [hbyte]
  refine (toNat_flags_append _ _ _ _ _).trans ?_
  cases a.heard.shown <;> rfl

/-! ## The fields of a valid announcement (R50, R51) -/

/-- The checks of R51 on a message that holds the seven bytes before the ready list. -/
theorem parseAnnouncement_cons_iff (slot : Nat) (head afnHi afnLo stateByte shownHi shownLo count : Byte)
    (rest message : List Byte) (hmessage : message =
      head :: afnHi :: afnLo :: stateByte :: shownHi :: shownLo :: count :: rest) (h : Announcement) :
    parseAnnouncement slot message = some h ↔
      count.toNat ≤ 3 ∧ message.length = 11 + 2 * count.toNat ∧ head.extractLsb' 4 4 = 0xA#4 ∧
      (head.extractLsb' 0 4).toNat = slot ∧ word16 afnHi afnLo = h.afn ∧
      stateByte.extractLsb' 0 4 = h.state.code ∧
      (if stateByte.getLsbD 4 = true then some (word16 shownHi shownLo) else none) = h.shown ∧
      h.ready.length = count.toNat ∧ strictlyIncreasing h.ready = true ∧
      words16 rest = h.ready ++ [h.heardMap, crc16 lsbFirst (message.take (9 + 2 * count.toNat))] := by
  subst hmessage
  unfold parseAnnouncement
  dsimp only
  rw [words16_take, words16_drop]
  constructor
  · intro hparse
    split at hparse
    · rename_i heardMap check state hfields hstate
      split at hparse
      · rename_i hvalid
        obtain ⟨hkind, hsender, hcount, hlen, hrises, hcheck⟩ := hvalid
        cases hparse
        refine ⟨hcount, hlen, hkind, hsender, rfl, (announcedState_eq_some _ _).1 hstate, rfl, ?_, hrises, ?_⟩
        · have htwo := congrArg List.length hfields
          simp only [List.length_drop, List.length_cons, List.length_nil] at htwo
          rw [List.length_take]
          omega
        · rw [← hcheck, ← hfields, List.take_append_drop]
      · cases hparse
    · cases hparse
  · rintro ⟨hcount, hlen, hkind, hsender, hafn, hcode, hshown, hready, hrises, hfields⟩
    have htake : (words16 rest).take count.toNat = h.ready := by rw [hfields, ← hready, List.take_left]
    have hdrop := congrArg (List.drop h.ready.length) hfields
    rw [List.drop_left, hready] at hdrop
    rw [htake, hdrop, (announcedState_eq_some _ _).2 hcode]
    dsimp only
    rw [if_pos ⟨hkind, hsender, hcount, hlen, hrises, rfl⟩, hafn, hshown]

/-- A run of fields is the ready list, the heard map and the check field when each has the number that stands in its place. -/
theorem eq_append_pair_iff {fields ready : List (BitVec 16)} {c : Nat} (hfields : fields.length = c + 2)
    (hready : ready.length = c) (last check : BitVec 16) {word : Nat → Nat}
    (hword : ∀ k w, fields[k]? = some w → word k = w.toNat) :
    fields = ready ++ [last, check] ↔
      (∀ (k : Nat) (w : BitVec 16), ready[k]? = some w → word k = w.toNat) ∧ word c = last.toNat ∧
      word (c + 1) = check.toNat := by
  constructor
  · rintro rfl
    refine ⟨fun k w hk => hword k w ?_, hword _ _ ?_, hword _ _ ?_⟩
    · rw [List.getElem?_append_left (List.getElem?_eq_some_iff.1 hk).1]; exact hk
    · simp [← hready]
    · simp [← hready]
  · rintro ⟨hlow, hlast, hcheck⟩
    refine List.ext_getElem (by simp [hfields, hready]) fun k hk _ => ?_
    refine BitVec.eq_of_toNat_eq ((hword k _ (List.getElem?_eq_getElem hk)).symm.trans ?_)
    rcases Nat.lt_trichotomy k c with hlt | rfl | hgt
    · rw [List.getElem_append_left (by omega)]
      exact hlow k _ (List.getElem?_eq_getElem _)
    · simp [List.getElem_append_right, hready, hlast]
    · obtain rfl : k = c + 1 := by omega
      simp [List.getElem_append_right, hready, hcheck]

/-- "Strictly increasing" for a list of contents in terms of their numbers (R1, R51). -/
theorem strictlyIncreasing_iff_word {l : List Content} {word : Nat → Nat}
    (hword : ∀ (k : Nat) (content : Content), l[k]? = some content → word k = content.toNat) :
    strictlyIncreasing l = true ↔ ∀ k, k + 1 < l.length →
      1 ≤ (word (k + 1) + 65536 - word k) % 65536 ∧ (word (k + 1) + 65536 - word k) % 65536 ≤ 32767 := by
  rw [strictlyIncreasing_iff_getElem?]
  constructor
  · intro hrises k hk
    have hnewer := hrises k _ _ (List.getElem?_eq_getElem (by omega)) (List.getElem?_eq_getElem hk)
    rw [newer_iff] at hnewer
    rwa [hword k _ (List.getElem?_eq_getElem (by omega)), hword (k + 1) _ (List.getElem?_eq_getElem hk)]
  · intro hrises k older newer holder hnewer
    rw [newer_iff, ← hword k older holder, ← hword (k + 1) newer hnewer]
    exact hrises k (List.getElem?_eq_some_iff.1 hnewer).1

/-- The kind and the sender of byte 0, and the state code and SHOWN-PRESENT of byte 3. -/
theorem nibbles_iff (byte : Byte) : (∀ kind : BitVec 4, byte.extractLsb' 4 4 = kind ↔ byte.toNat / 16 = kind.toNat) ∧
    (∀ code : BitVec 4, byte.extractLsb' 0 4 = code ↔ byte.toNat % 16 = code.toNat) ∧
    (byte.getLsbD 4 = true ↔ byte.toNat / 16 % 2 = 1) := by
  have hhigh : (byte.extractLsb' 4 4).toNat = byte.toNat / 16 := by
    rw [BitVec.extractLsb'_toNat, Nat.shiftRight_eq_div_pow]; omega
  have hlow : (byte.extractLsb' 0 4).toNat = byte.toNat % 16 := by simp
  refine ⟨fun kind => ?_, fun code => ?_, ?_⟩
  · rw [← hhigh, BitVec.toNat_inj]
  · rw [← hlow, BitVec.toNat_inj]
  · rw [BitVec.getLsbD, Nat.testBit_eq_decide_div_mod_eq, decide_eq_true_iff]

/-- Shown counts only where SHOWN-PRESENT is set (R51). -/
theorem shownField_eq_iff {byte : Byte} {field : BitVec 16} {shown : Option Content} :
    (if byte.getLsbD 4 = true then some field else none) = shown ↔
      (byte.toNat / 16 % 2 = 0 → shown = none) ∧
      (byte.toNat / 16 % 2 = 1 → ∃ content, shown = some content ∧ field.toNat = content.toNat) := by
  obtain ⟨-, -, hpresent⟩ := nibbles_iff byte
  by_cases h : byte.toNat / 16 % 2 = 1
  · rw [if_pos (hpresent.2 h)]
    simp [h, eq_comm, BitVec.toNat_inj]
  · have hzero : byte.toNat / 16 % 2 = 0 := by omega
    rw [if_neg (fun hset => h (hpresent.1 hset))]
    simp [hzero, eq_comm]

theorem exists_eq_cons_seven {message : List Byte} (h : 7 ≤ message.length) :
    ∃ (head afnHi afnLo stateByte shownHi shownLo count : Byte) (rest : List Byte), message =
      head :: afnHi :: afnLo :: stateByte :: shownHi :: shownLo :: count :: rest := by
  rcases message with _ | ⟨head, _ | ⟨afnHi, _ | ⟨afnLo, _ | ⟨stateByte, _ | ⟨shownHi, _ | ⟨shownLo, _ | ⟨count, rest⟩⟩⟩⟩⟩⟩⟩
  case cons.cons.cons.cons.cons.cons.cons => exact ⟨head, afnHi, afnLo, stateByte, shownHi, shownLo, count, rest, rfl⟩
  all_goals simp at h

/-- Which messages are valid announcements, and with which record, in terms of the bytes as numbers (R50, R51). -/
theorem parseAnnouncement_eq_some_iff (slot : Nat) (message : List Byte) (h : Announcement) {c : Nat}
    (hc : c = byteAt message 6) : parseAnnouncement slot message = some h ↔
      c ≤ 3 ∧ message.length = 11 + 2 * c ∧ byteAt message 0 / 16 = 0xA ∧ byteAt message 0 % 16 = slot ∧
      wordAt message 1 = h.afn.toNat ∧ byteAt message 3 % 16 = h.state.code.toNat ∧
      (byteAt message 3 / 16 % 2 = 0 → h.shown = none) ∧
      (byteAt message 3 / 16 % 2 = 1 → ∃ content, h.shown = some content ∧ wordAt message 4 = content.toNat) ∧
      h.ready.length = c ∧
      (∀ (k : Nat) (content : Content), h.ready[k]? = some content → wordAt message (7 + 2 * k) = content.toNat) ∧
      (∀ k, k + 1 < c → 1 ≤ (wordAt message (9 + 2 * k) + 65536 - wordAt message (7 + 2 * k)) % 65536 ∧
        (wordAt message (9 + 2 * k) + 65536 - wordAt message (7 + 2 * k)) % 65536 ≤ 32767) ∧
      wordAt message (7 + 2 * c) = h.heardMap.toNat ∧
      wordAt message (9 + 2 * c) = (crc16 lsbFirst (message.take (9 + 2 * c))).toNat := by
  by_cases hshort : message.length < 7
  · refine ⟨fun hparse => ?_, fun ⟨_, hlen, _⟩ => ?_⟩
    · have hlen := (parseAnnouncement_length hparse).1
      omega
    · omega
  obtain ⟨head, afnHi, afnLo, stateByte, shownHi, shownLo, count, rest, hmessage⟩ :=
    exists_eq_cons_seven (Nat.le_of_not_lt hshort)
  have hrest : message.drop 7 = rest := by rw [hmessage]; rfl
  have hlength : message.length = rest.length + 7 := by rw [hmessage]; rfl
  have hcount : count.toNat = c := by rw [hc, hmessage]; rfl
  have hhead : head.toNat = byteAt message 0 := by rw [hmessage]; rfl
  have hstate : stateByte.toNat = byteAt message 3 := by rw [hmessage]; rfl
  have hafn : (word16 afnHi afnLo).toNat = wordAt message 1 := by rw [word16_toNat, hmessage]; rfl
  have hshown : (word16 shownHi shownLo).toNat = wordAt message 4 := by rw [word16_toNat, hmessage]; rfl
  have hsender : (head.extractLsb' 0 4).toNat = byteAt message 0 % 16 := by simp [← hhead]
  have hfields : ∀ k w, (words16 rest)[k]? = some w → wordAt message (7 + 2 * k) = w.toNat :=
    fun _ _ => wordAt_of_words16 hrest
  rw [parseAnnouncement_cons_iff slot _ _ _ _ _ _ _ rest message hmessage h, shownField_eq_iff,
    (nibbles_iff head).1, (nibbles_iff stateByte).2.1, ← BitVec.toNat_inj, hcount, hhead, hstate, hafn, hshown, hsender]
  have hnext (k : Nat) : 7 + 2 * (k + 1) = 9 + 2 * k := by omega
  constructor
  · rintro ⟨hle, hlen, hkind, hslot, hh, hcode, ⟨habsent, hpresent⟩, hready, hrises, heq⟩
    obtain ⟨hlow, hmap, hcheck⟩ := (eq_append_pair_iff (by rw [length_words16]; omega) hready _ _ hfields).1 heq
    have hwords := (strictlyIncreasing_iff_word hlow).1 hrises
    simp only [hready, hnext] at hwords hcheck
    exact ⟨hle, hlen, hkind, hslot, hh, hcode, habsent, hpresent, hready, hlow, hwords, hmap, hcheck⟩
  · rintro ⟨hle, hlen, hkind, hslot, hh, hcode, habsent, hpresent, hready, hlow, hwords, hmap, hcheck⟩
    refine ⟨hle, hlen, hkind, hslot, hh, hcode, ⟨habsent, hpresent⟩, hready,
      (strictlyIncreasing_iff_word (word := fun k => wordAt message (7 + 2 * k)) hlow).2 ?_,
      (eq_append_pair_iff (by rw [length_words16]; omega) hready _ _ hfields).2 ⟨hlow, hmap, ?_⟩⟩
    · simpa only [hready, hnext] using hwords
    · simpa only [hnext] using hcheck

/-! ## An announcement read back from its own bytes -/

/-- The ready list, the heard map and the check field of an announcement (Table 13-1). -/
theorem Snapshot.words (a : Snapshot) :
    (∀ (k : Nat) (content : Content), a.heard.ready[k]? = some content → wordAt a.bytes (7 + 2 * k) = content.toNat) ∧
    wordAt a.bytes (7 + 2 * a.heard.ready.length) = a.heard.heardMap.toNat ∧
    wordAt a.bytes (9 + 2 * a.heard.ready.length) =
      (crc16 lsbFirst (a.bytes.take (9 + 2 * a.heard.ready.length))).toNat := by
  obtain ⟨hready, hmap, hcheck⟩ :=
    (eq_append_pair_iff (by simp [Snapshot.fields]) rfl _ _ (fun _ _ => a.wordAt_fields)).1 rfl
  refine ⟨hready, hmap, ?_⟩
  rw [a.take_bytes, ← hcheck]
  congr 1
  omega

/-- The state code of byte 3, and its SHOWN-PRESENT flag, whatever the other flags. -/
theorem Snapshot.byteAt_state_parts (a : Snapshot) : byteAt a.bytes 3 % 16 = a.heard.state.code.toNat ∧
    byteAt a.bytes 3 / 16 % 2 = if a.heard.shown = none then 0 else 1 := by
  have hcode := a.heard.state.code.isLt
  rw [a.byteAt_state]
  split_ifs <;> omega

/-- An announcement whose ready list is in order is read back from its own bytes (R45, R51). -/
theorem Snapshot.parse_bytes {a : Snapshot} (hlen : a.heard.ready.length ≤ 3)
    (hrises : strictlyIncreasing a.heard.ready = true) : parseAnnouncement a.sender.toNat a.bytes = some a.heard := by
  obtain ⟨hready, hmap, hcheck⟩ := a.words
  have hkind := a.byteAt_kind
  have hsender := a.sender.isLt
  obtain ⟨hcode, hpresence⟩ := a.byteAt_state_parts
  have hnext (k : Nat) : 7 + 2 * (k + 1) = 9 + 2 * k := by omega
  have hwords := (strictlyIncreasing_iff_word (word := fun k => wordAt a.bytes (7 + 2 * k)) hready).1 hrises
  simp only [hnext] at hwords
  rw [parseAnnouncement_eq_some_iff _ _ _ (a.byteAt_count hlen).symm]
  refine ⟨hlen, a.length_bytes, by omega, by omega, a.wordAt_afn, hcode, fun habsent => ?_, fun hpresent => ?_, rfl,
    hready, hwords, hmap, hcheck⟩
  · by_contra hshown
    simp [hpresence, hshown] at habsent
  · cases hshown : a.heard.shown with
    | none => simp [hpresence, hshown] at hpresent
    | some content => exact ⟨content, rfl, by rw [a.wordAt_shown, hshown]; rfl⟩

/-! ## The own message, cell by cell (R41, R42, R49, R50) -/

/-- The receiver after a run of settled cells. -/
def LinkInterface.receive (l : LinkInterface) (levels : List Level) : LinkInterface :=
  levels.foldl LinkInterface.receiveCell l

theorem LinkInterface.receive_append (l : LinkInterface) (before after : List Level) :
    l.receive (before ++ after) = (l.receive before).receive after := List.foldl_append

theorem LinkInterface.receive_cons (l : LinkInterface) (level : Level) (levels : List Level) :
    l.receive (level :: levels) = (l.receiveCell level).receive levels := rfl

/-- A released line changes nothing outside a character. -/
theorem LinkInterface.receive_idle {l : LinkInterface} (h : l.rx = .waiting ∨ l.rx = .between ∨ l.rx = .complete)
    {levels : List Level} (hhigh : ∀ level ∈ levels, level = .high) :
    (l.receive levels).rx = l.rx ∧ (l.receive levels).received = l.received ∧
    (l.receive levels).expected = l.expected := by
  induction levels generalizing l with
  | nil => exact ⟨rfl, rfl, rfl⟩
  | cons level levels ih =>
    obtain ⟨rfl, hrest⟩ := List.forall_mem_cons.1 hhigh
    rw [LinkInterface.receive_cons, LinkInterface.receiveCell_idle h]
    exact ih (l := l.see .high) h hrest

/-- The level of a data or lead cell. -/
def bitLevel (bit : Bool) : Level := if bit = true then .high else .low

theorem decide_bitLevel (bit : Bool) : decide (bitLevel bit = .high) = bit := by cases bit <;> rfl

/-- The data cells of a character are gathered, first received first. -/
theorem LinkInterface.receive_data {l : LinkInterface} {k : Nat} {bits : List Bool} {lead : Level}
    (h : l.rx = .inCharacter k bits lead) (data : List Bool) (hk : k + data.length ≤ 9) :
    (l.receive (data.map bitLevel)).rx = .inCharacter (k + data.length) (bits ++ data) lead ∧
    (l.receive (data.map bitLevel)).received = l.received ∧
    (l.receive (data.map bitLevel)).expected = l.expected := by
  induction data generalizing l k bits with
  | nil => simpa using ⟨h, rfl, rfl⟩
  | cons bit data ih =>
    simp only [List.length_cons] at hk
    rw [List.map_cons, LinkInterface.receive_cons, LinkInterface.receiveCell_character h,
      LinkInterface.characterStep_data _ (by omega), decide_bitLevel]
    have hrest := ih (l := { l.see (bitLevel bit) with rx := .inCharacter (k + 1) (bits ++ [bit]) lead }) rfl (by omega)
    rw [show k + 1 + data.length = k + (bit :: data).length by simp; omega, List.append_assoc] at hrest
    exact hrest

/-- The levels of the eleven cells of a character (R41). -/
def characterLevels (first : Bool) (byte : Byte) : List Level := (List.range 11).map (characterCell first byte)

theorem characterLevels_eq (first : Bool) (byte : Byte) :
    characterLevels first byte = .low :: ((lsbFirst byte).map bitLevel ++ [bitLevel first, .high]) := rfl

theorem byteOfBits_lsbFirst (byte : Byte) : byteOfBits (lsbFirst byte) = byte := by
  revert byte; decide

/-- The lead cell and a released stop cell end a character. -/
theorem LinkInterface.receive_lead_stop {l : LinkInterface} {bits : List Bool} {lead : Level}
    (h : l.rx = .inCharacter 9 bits lead) (level : Level) : ∃ e : LinkInterface,
      l.receive [level, .high] = e.endCharacter (byteOfBits bits) level ∧
      e.received = l.received ∧ e.expected = l.expected := by
  refine ⟨({ l.see level with rx := .inCharacter 10 bits level } : LinkInterface).see .high, ?_, rfl, rfl⟩
  rw [LinkInterface.receive_cons, LinkInterface.receiveCell_character h, LinkInterface.characterStep_lead]
  exact LinkInterface.receiveCell_character (l := { l.see level with rx := .inCharacter 10 bits level }) rfl .high

/-- A whole character reaches the receiver as its byte: what `endCharacter` makes of it stands in the three fields. -/
theorem LinkInterface.receive_character {l : LinkInterface} (h : l.rx = .waiting ∨ l.rx = .between) {first : Bool}
    (hfirst : first = true ↔ l.received = []) (byte : Byte) :
    (l.receive (characterLevels first byte)).received = l.received ++ [byte] ∧
    (l.receive (characterLevels first byte)).expected =
      (if l.received.length = 6 ∧ byte.toNat ≤ 3 then some (11 + 2 * byte.toNat) else l.expected) ∧
    (l.receive (characterLevels first byte)).rx =
      (if l.received.length = 6 then if 3 < byte.toNat then .broken else .between
        else if l.expected = some (l.received.length + 1) then .complete else .between) := by
  rw [characterLevels_eq, LinkInterface.receive_cons, LinkInterface.receiveCell_start h, LinkInterface.receive_append]
  obtain ⟨hrx, hreceived, hexpected⟩ := LinkInterface.receive_data
    (l := { l.see .low with rx := .inCharacter 1 [] .low }) rfl (lsbFirst byte) (by simp [lsbFirst])
  rw [show 1 + (lsbFirst byte).length = 9 by simp [lsbFirst], List.nil_append] at hrx
  obtain ⟨e, hend, hreceived', hexpected'⟩ := LinkInterface.receive_lead_stop hrx (bitLevel first)
  have hsame : e.received = l.received ∧ e.expected = l.expected :=
    ⟨hreceived'.trans hreceived, hexpected'.trans hexpected⟩
  have hlead : bitLevel first = e.leadDue := by
    rw [LinkInterface.leadDue, hsame.1]
    exact if_congr hfirst rfl rfl
  rw [hend, byteOfBits_lsbFirst, e.endCharacter_right_lead byte hlead]
  dsimp only
  rw [hsame.1, hsame.2]
  exact ⟨rfl, rfl, rfl⟩

/-- The receiver has taken the first `k` characters of a message, and none of the next. -/
structure LinkInterface.HasRead (l : LinkInterface) (message : List Byte) (k : Nat) : Prop where
  received : l.received = message.take k
  expected : l.expected = if k < 7 then none else some message.length
  rx : l.rx = if k = 0 then .waiting else if k = message.length then .complete else .between

/-- The next character of a message with the length that its count calls for (R50). -/
theorem LinkInterface.HasRead.next {l : LinkInterface} {message : List Byte} {k : Nat} (h : l.HasRead message k)
    (hcount : byteAt message 6 ≤ 3) (hlen : message.length = 11 + 2 * byteAt message 6) (hk : k < message.length) :
    (l.receive (characterLevels (decide (k = 0)) message[k])).HasRead message (k + 1) := by
  have htaken : l.received.length = k := by rw [h.received, List.length_take]; omega
  have hphase : l.rx = .waiting ∨ l.rx = .between := by
    rw [h.rx]
    by_cases hzero : k = 0
    · exact Or.inl (if_pos hzero)
    · exact Or.inr (by rw [if_neg hzero, if_neg (by omega)])
  have hfirst : decide (k = 0) = true ↔ l.received = [] := by
    rw [decide_eq_true_iff, ← List.length_eq_zero_iff, htaken]
  obtain ⟨hreceived, hexpected, hrx⟩ := LinkInterface.receive_character hphase hfirst message[k]
  rw [htaken, h.expected] at hexpected hrx
  refine ⟨?_, hexpected.trans ?_, hrx.trans ?_⟩
  · rw [hreceived, h.received, List.take_append_getElem hk]
  · by_cases hsix : k = 6
    · subst hsix
      have hbyte : message[6].toNat = byteAt message 6 := by simp [byteAt, hk]
      simp [hbyte, hcount, hlen]
    · simp [hsix, show k < 7 ↔ k + 1 < 7 by omega]
  · by_cases hsix : k = 6
    · subst hsix
      have hbyte : message[6].toNat = byteAt message 6 := by simp [byteAt, hk]
      simp [hbyte, show ¬3 < byteAt message 6 by omega, show 7 ≠ message.length by omega]
    · by_cases hearly : k < 7
      · simp [hsix, hearly, show k + 1 ≠ message.length by omega]
      · simp [hsix, hearly, eq_comm]

/-- Character `k` of a message takes the eleven cells from 2 + 11k (R42). -/
theorem messageCells_succ (message : List Byte) {k : Nat} (hk : k < message.length) :
    (List.range (2 + 11 * (k + 1))).map (messageCell message) =
      (List.range (2 + 11 * k)).map (messageCell message) ++ characterLevels (decide (k = 0)) message[k] := by
  rw [show 2 + 11 * (k + 1) = 2 + 11 * k + 11 by omega, List.range_add, List.map_append, List.map_map]
  congr 1
  refine List.map_congr_left fun cell hcell => ?_
  exact messageCell_eq message k cell (List.mem_range.1 hcell) _ (List.getElem?_eq_getElem hk)

/-- The receiver that begins a slot afresh follows a message character by character (R41, R42, R49, R50). -/
theorem LinkInterface.hasRead_cells (l : LinkInterface) {message : List Byte} (hcount : byteAt message 6 ≤ 3)
    (hlen : message.length = 11 + 2 * byteAt message 6) {k : Nat} (hk : k ≤ message.length) :
    (l.resetReceiver.receive ((List.range (2 + 11 * k)).map (messageCell message))).HasRead message k := by
  induction k with
  | zero =>
    have hhigh : ∀ level ∈ (List.range (2 + 11 * 0)).map (messageCell message), level = .high := by
      simp [List.range_succ, messageCell]
    obtain ⟨hrx, hreceived, hexpected⟩ := LinkInterface.receive_idle (l := l.resetReceiver) (Or.inl rfl) hhigh
    exact ⟨hreceived, hexpected, hrx⟩
  | succ k ih =>
    rw [messageCells_succ message hk, LinkInterface.receive_append]
    exact (ih (by omega)).next hcount hlen hk

/-- After the last stop cell the line stays released (R42). -/
theorem messageCell_after (message : List Byte) {k : Nat} (hk : 2 + 11 * message.length ≤ k) :
    messageCell message k = .high := by
  have hnone : message[(k - 2) / 11]? = none := List.getElem?_eq_none (by omega)
  simp [messageCell, hnone]

/-- A slot that holds a whole message leaves the receiver COMPLETE, with the message received. -/
theorem LinkInterface.receive_message (l : LinkInterface) {message : List Byte} (hcount : byteAt message 6 ≤ 3)
    (hlen : message.length = 11 + 2 * byteAt message 6) {cells : Nat} (hcells : 11 * message.length + 1 < cells) :
    (l.resetReceiver.receive ((List.range cells).map (messageCell message))).rx = .complete ∧
    (l.resetReceiver.receive ((List.range cells).map (messageCell message))).received = message := by
  obtain ⟨extra, rfl⟩ := Nat.exists_eq_add_of_le (show 2 + 11 * message.length ≤ cells by omega)
  obtain ⟨hreceived, -, hrx⟩ := l.hasRead_cells hcount hlen (Nat.le_refl _)
  rw [if_neg (by omega), if_pos rfl] at hrx
  rw [List.take_length] at hreceived
  rw [List.range_add, List.map_append, LinkInterface.receive_append]
  obtain ⟨hrx', hreceived', -⟩ := LinkInterface.receive_idle (Or.inr (Or.inr hrx))
    (levels := ((List.range extra).map (2 + 11 * message.length + ·)).map (messageCell message)) (by
      simp only [List.mem_map, forall_exists_index, and_imp, forall_apply_eq_imp_iff₂]
      exact fun k _ => messageCell_after message (by omega))
  exact ⟨hrx'.trans hrx, hreceived'.trans hreceived⟩

/-- Settles O25: the bytes of an announcement, the valid messages, and the own message read back. -/
theorem ownAnnouncementIsHeard : Obligations.OwnAnnouncementIsHeard := by
  refine ⟨fun a bytes byte word c hbytes hc hcount hbyte hword => ?_,
    fun slot message h byte word c hbyte hword hc => ?_,
    fun a l cells hcount hrises => ⟨a.length_bytes, fun hcells => ?_⟩⟩
  · subst hbytes hc
    obtain rfl : byte = byteAt a.bytes := funext hbyte
    obtain rfl : word = wordAt a.bytes := funext hword
    obtain ⟨hready, hmap, hcheck⟩ := a.words
    refine ⟨a.length_bytes, a.byteAt_kind, a.wordAt_afn, a.byteAt_state.trans ?_, a.wordAt_shown, a.byteAt_count hcount,
      hready, hmap, hcheck⟩
    cases a.heard.state <;> rfl
  · obtain rfl : byte = byteAt message := funext hbyte
    obtain rfl : word = wordAt message := funext hword
    refine (parseAnnouncement_eq_some_iff slot message h hc).trans ?_
    cases h.state <;> rfl
  · have hread : (List.range cells).foldl (fun m k => m.receiveCell (messageCell a.bytes k)) l.resetReceiver =
        l.resetReceiver.receive ((List.range cells).map (messageCell a.bytes)) := List.foldl_map.symm
    have hsix := a.byteAt_count hcount
    obtain ⟨hrx, hreceived⟩ := l.receive_message (message := a.bytes) (by omega) (by rw [hsix, a.length_bytes]) hcells
    have hrecord : (l.resetReceiver.receive ((List.range cells).map (messageCell a.bytes))).heardRecord a.sender.toNat =
        some a.heard := by
      rw [LinkInterface.heardRecord, if_pos hrx, hreceived, Snapshot.parse_bytes hcount hrises]
    rw [hread]
    exact ⟨hrx, hreceived, hrecord, by simp [LinkInterface.outcome, hrecord]⟩

end Sys2Proof.Machine
end

section
/-! The verdict sample (R58, R89, R90, R106), and the roll-call close: R, the claimed fields and the five results (R56, R65 to
R72, R75). -/

namespace Sys2Proof.Machine

open Sys2Proof

/-! ## The verdict sample -/

/-- The cause RECEPTION becomes pending in a MEMBER without one, at a run of 6 (R104, R106). -/
theorem State.receptionCheck_eq (s : State) : s.receptionCheck = { s with
    member := { s.member with
      withdrawal := if s.member.state = .member ∧ s.member.withdrawal = none ∧ s.consent.receptionRun = 6 then
          some .reception
        else s.member.withdrawal } } := by
  unfold State.receptionCheck Membership.raise
  by_cases hrun : s.consent.receptionRun = 6
  · by_cases hraised : s.member.state = .member ∧ s.member.withdrawal = none
    · simp [hrun, hraised, Config.receptionLimit]
    · simp [hrun, hraised, Config.receptionLimit]
  · simp [hrun, Config.receptionLimit]

theorem State.verdictSample_tracking {s : State} (h : s.tb.state = .tracking) (samples : Samples) :
    s.verdictSample samples = ({ s with
      tb := (s.moveToEnd (s.settings.vl + 1) (s.settings.middle + 1)).tb
      link := { s.link with verdictLevel := some samples.level }
      consent := s.consent.takeVerdict samples.level
      member := { s.member with verdictLevel := some samples.level } } : State).receptionCheck :=
  if_pos ((s.moveToEnd_kept _ _).1.trans h)

theorem State.verdictSample_seeking {s : State} (h : s.tb.state = .seeking) (samples : Samples) :
    s.verdictSample samples =
      { s with tb := (s.moveToEnd (s.settings.vl + 1) (s.settings.middle + 1)).tb } :=
  if_neg (by rw [(s.moveToEnd_kept _ _).1, h]; simp)

/-- Settles O27: the counters, the SEEKING frame, and the verdict, the run and the cause of a TRACKING frame. -/
theorem verdictSampleSetsTheVerdict : Obligations.VerdictSampleSetsTheVerdict := by
  intro s samples hr hvl hfl hll
  have hmove := s.moveToEnd_inside (s.settings.vl + 1) (s.settings.middle + 1) (by omega) hfl (by omega) hll
  cases hstate : s.tb.state with
  | seeking =>
    refine ⟨_, (exec_of_running hr rfl).trans (congrArg _ (State.verdictSample_seeking hstate samples)), ?_,
      fun _ => rfl, fun h => by cases h⟩
    rw [hmove]
    rfl
  | tracking =>
    have hop := (State.verdictSample_tracking hstate samples).trans (State.receptionCheck_eq _)
    refine ⟨_, (exec_of_running hr rfl).trans (congrArg _ hop), ?_, (fun h => by cases h), fun _ => ⟨rfl, rfl, rfl⟩⟩
    rw [hmove]
    rfl

/-! ## The levels of the roll call (R56) -/

theorem rollCallLevels_eq_map {cells : List Samples} (h : cells.length = 16) :
    rollCallLevels cells = cells.map Samples.level := by
  refine List.ext_getElem (by simp [rollCallLevels, Config.stations, h]) fun i hi _ => ?_
  have hi : i < cells.length := by simpa [rollCallLevels, Config.stations, h] using hi
  simp [rollCallLevels, hi]

/-! ## What the roll call does to the roster (R65) -/

theorem getElem?_claimEntries (n : Nat) (levels : List Level) (i k : Nat) (es : List RosterEntry) :
    (claimEntries n levels i es)[k]? = (es[k]?).map (fun e =>
      { e with claimed := if i + k < n ∧ (levels[i + k]?).getD .high = .low then .yes else .no }) := by
  induction es generalizing i k with
  | nil => simp [claimEntries]
  | cons e es ih =>
    cases k with
    | zero => simp [claimEntries]
    | succ k => simp [claimEntries, ih, Nat.add_right_comm i 1 k, Nat.add_assoc]

theorem Roster.mem_rollCall_r (t : Roster) (n : Nat) (levels : List Level) (i : Nat) :
    i ∈ (t.rollCall n levels).r ↔ i < 16 ∧ i < n ∧ (levels[i]?).getD .high = .low := by
  simp [Roster.rollCall, Config.stations]

theorem Roster.rollCall_r_rises (t : Roster) (n : Nat) (levels : List Level) :
    (t.rollCall n levels).r.Pairwise (fun i j => i < j) := List.pairwise_lt_range.filter _

/-- The claimed fields follow R (R65). -/
theorem Roster.entry_rollCall {t : Roster} (h : t.entries.length = 16) (n : Nat) (levels : List Level) {i : Nat}
    (hi : i < 16) : (t.rollCall n levels).entry i =
      { t.entry i with claimed := if i ∈ (t.rollCall n levels).r then .yes else .no } := by
  have hentry : (claimEntries n levels 0 t.entries)[i]? = _ := getElem?_claimEntries n levels 0 i t.entries
  have hsome : t.entries[i]? = some t.entries[i] := List.getElem?_eq_getElem (by omega)
  simp only [Roster.mem_rollCall_r, hi, true_and]
  unfold Roster.entry
  rw [show (t.rollCall n levels).entries = claimEntries n levels 0 t.entries from rfl, hentry, hsome]
  simp

/-- Of an entry the roll call changes the claimed field alone. -/
theorem Roster.rollCall_entry_kept (t : Roster) (n : Nat) (levels : List Level) (i : Nat) :
    ((t.rollCall n levels).entry i).outcome = (t.entry i).outcome ∧
    ((t.rollCall n levels).entry i).record = (t.entry i).record ∧
    ((t.rollCall n levels).entry i).heardRun = (t.entry i).heardRun := by
  unfold Roster.entry
  rw [show (t.rollCall n levels).entries = claimEntries n levels 0 t.entries from rfl, getElem?_claimEntries]
  cases t.entries[i]? <;> exact ⟨rfl, rfl, rfl⟩

/-! ## The five results (R67 to R72) -/

theorem Roster.heardAll_iff (t : Roster) : t.heardAll = true ↔ ∀ i ∈ t.r, (t.entry i).outcome = .heard := by
  simp [Roster.heardAll, Roster.heard]

theorem Roster.settled_iff (t : Roster) : t.settled = true ↔ ∀ i ∈ t.r, 2 ≤ (t.entry i).heardRun :=
  List.all_eq_true.trans (forall₂_congr fun _ _ => decide_eq_true_iff)

theorem Roster.heardPeers_eq (t : Roster) (own : Nat) :
    t.heardPeers own = t.r.filter (fun j => decide (j ≠ own ∧ (t.entry j).outcome = .heard)) := by
  simp [Roster.heardPeers, Roster.heard]

theorem Roster.doesNotHear_congr {t u : Roster} {j : Nat} (h : t.recordOf j = u.recordOf j) (own : Nat) :
    t.doesNotHear own j = u.doesNotHear own j := by
  unfold Roster.doesNotHear; rw [h]

theorem Roster.recordInStep_congr {t u : Roster} {j : Nat} (h : t.recordOf j = u.recordOf j) (shown : Option Content) :
    t.recordInStep shown j = u.recordInStep shown j := by
  unfold Roster.recordInStep; rw [h]

/-- A majority of the peers that the station hears does not hear it, once it has claimed (R70, R75). -/
theorem Roster.unheardByMajority_iff (t : Roster) (own : Nat) (owed : Bool) : t.unheardByMajority own owed = true ↔
    owed = false ∧ own ∈ t.previousR ∧ t.heardPeers own ≠ [] ∧
      2 * ((t.heardPeers own).filter (t.doesNotHear own)).length > (t.heardPeers own).length := by
  simp [Roster.unheardByMajority, and_assoc]

theorem Roster.stepAgreement_eq (t : Roster) (own : Nat) (ownShown : Option Content) :
    t.stepAgreement own ownShown = (if own ∈ t.r then 1 else 0) +
      (t.r.filter (fun j => decide (j ≠ own ∧ (t.entry j).outcome = .heard) && t.recordInStep ownShown j)).length := by
  simp only [Roster.stepAgreement, Roster.heardPeers_eq, List.filter_filter, Bool.and_comm]

/-- The lead AFN is that of the first member of R that is HEARD (R72). -/
theorem Roster.leadAfn_of_first {t : Roster} (hrises : t.r.Pairwise (fun i j => i < j)) {j : Nat} {rec : RosterRecord}
    (hj : j ∈ t.r) (hheard : (t.entry j).outcome = .heard) (hrecord : (t.entry j).record = some rec)
    (hfirst : ∀ k ∈ t.r, k < j → (t.entry k).outcome ≠ .heard) : t.leadAfn = some rec.heard.afn := by
  obtain ⟨before, after, hsplit⟩ := List.append_of_mem hj
  have hbefore : ∀ k ∈ before, k < j := by
    rw [hsplit, List.pairwise_append] at hrises
    exact fun k hk => hrises.2.2 k hk j List.mem_cons_self
  have hfind : t.r.find? t.heard = some j := by
    rw [List.find?_eq_some_iff_append]
    refine ⟨decide_eq_true hheard, before, after, hsplit, fun k hk => ?_⟩
    have hne := hfirst k (by rw [hsplit]; exact List.mem_append_left _ hk) (hbefore k hk)
    simpa [Roster.heard] using hne
  simp [Roster.leadAfn, hfind, Roster.recordOf, hrecord]

theorem Roster.leadAfn_of_none {t : Roster} (h : ∀ j ∈ t.r, (t.entry j).outcome ≠ .heard) : t.leadAfn = none := by
  have hfind : t.r.find? t.heard = none := by simpa [Roster.heard] using h
  simp [Roster.leadAfn, hfind]

/-! ## The roll-call close -/

/-- The roster of a roll-call close in a TRACKING frame, before its results are formed (R65). -/
def State.calledRoster (s : State) (cells : List Samples) : Roster :=
  s.roster.rollCall s.settings.n (rollCallLevels cells)

/-- The results of a roll-call close in a TRACKING frame (R67). -/
def State.calledResults (s : State) (cells : List Samples) : Results :=
  (s.calledRoster cells).formResults s.own s.link.claimOwed s.table.shownContent

/-- In a TRACKING frame the roster takes the levels and the results, and no later block of the close changes it or the link. -/
theorem State.rollCallClose_tracking {s : State} (h : s.tb.state = .tracking) (cells : List Samples) :
    (s.rollCallClose cells).roster = { s.calledRoster cells with results := some (s.calledResults cells) } ∧
    (s.rollCallClose cells).link = { s.link with rollCall := (rollCallLevels cells).map some } := by
  have hstate := (s.moveToEnd_kept s.settings.vl (Config.stations * s.settings.cl)).1.trans h
  have hop : s.rollCallClose cells =
      (s.moveToEnd s.settings.vl (Config.stations * s.settings.cl)).rollCallWith (rollCallLevels cells) := if_pos hstate
  rw [hop]
  unfold State.rollCallWith
  dsimp only [State.rosterRollCall]
  simp only [State.membershipRollCall_frame, State.consentRollCall_frame]
  exact ⟨rfl, rfl⟩

/-- R of a roll-call close in terms of the samples (R56, R65). -/
theorem State.mem_calledRoster_r {s : State} {cells : List Samples} (h : cells.length = 16) (i : Nat) :
    i ∈ (s.calledRoster cells).r ↔ i < s.settings.n ∧ ∃ c, cells[i]? = some c ∧ c.level = .low := by
  unfold State.calledRoster
  rw [Roster.mem_rollCall_r, rollCallLevels_eq_map h, List.getElem?_map]
  cases hcell : cells[i]? with
  | none => simp
  | some c =>
    have hi := (List.getElem?_eq_some_iff.1 hcell).1
    simp [show i < 16 by omega]

/-- Settles O28: R and the claimed fields, and the five results one by one. -/
theorem rollCallCloseFormsRAndResults : Obligations.RollCallCloseFormsRAndResults := by
  intro s cells hr htracking hcells hlength
  obtain ⟨hroster, hlink⟩ := State.rollCallClose_tracking htracking cells
  rw [rollCallLevels_eq_map hcells, List.map_map] at hlink
  refine ⟨s.rollCallClose cells, s.calledResults cells, exec_of_running hr rfl, ?_, ?_⟩
  · simp [State.ext_iff, hlink, Function.comp_def]
  have hrises : (s.calledRoster cells).r.Pairwise (fun i j => i < j) := s.roster.rollCall_r_rises _ _
  have houtcome (i : Nat) : ((s.calledRoster cells).entry i).outcome = (s.roster.entry i).outcome :=
    (s.roster.rollCall_entry_kept _ _ i).1
  have hrecord (i : Nat) : ((s.calledRoster cells).entry i).record = (s.roster.entry i).record :=
    (s.roster.rollCall_entry_kept _ _ i).2.1
  have hrun (i : Nat) : ((s.calledRoster cells).entry i).heardRun = (s.roster.entry i).heardRun :=
    (s.roster.rollCall_entry_kept _ _ i).2.2
  rw [hroster]
  refine ⟨rfl, State.mem_calledRoster_r hcells, hrises, fun i hi => Roster.entry_rollCall hlength _ _ hi, rfl,
    ?_, ?_, ?_, ?_, fun j rec hj hheard hrec hfirst => ?_, fun hnone => ?_⟩
  · have hall := (s.calledRoster cells).heardAll_iff
    simp only [houtcome] at hall
    exact hall
  · have hsettled := (s.calledRoster cells).settled_iff
    simp only [hrun] at hsettled
    exact hsettled
  · have hpeers := (s.calledRoster cells).heardPeers_eq s.own
    simp only [houtcome] at hpeers
    have hdeaf : (s.calledRoster cells).doesNotHear s.own = s.roster.doesNotHear s.own :=
      funext fun j => Roster.doesNotHear_congr (hrecord j) s.own
    refine ((s.calledRoster cells).unheardByMajority_iff s.own s.link.claimOwed).trans ?_
    rw [hpeers, hdeaf]
    constructor
    · rintro ⟨howed, hprevious, hsome, hmajority⟩
      exact ⟨howed, hprevious, _, _, rfl, rfl, hsome, hmajority⟩
    · rintro ⟨howed, hprevious, _, _, rfl, rfl, hsome, hmajority⟩
      exact ⟨howed, hprevious, hsome, hmajority⟩
  · have hstep : (s.calledRoster cells).recordInStep s.table.shownContent =
        s.roster.recordInStep s.table.shownContent :=
      funext fun j => Roster.recordInStep_congr (hrecord j) s.table.shownContent
    have hagreement := (s.calledRoster cells).stepAgreement_eq s.own s.table.shownContent
    simp only [houtcome, hstep] at hagreement
    exact hagreement
  · exact Roster.leadAfn_of_first hrises hj ((houtcome j).trans hheard) ((hrecord j).trans hrec)
      fun k hk hlt => by rw [houtcome]; exact hfirst k hk hlt
  · exact Roster.leadAfn_of_none fun j hj => by rw [houtcome]; exact hnone j hj

end Sys2Proof.Machine
end

section
/-! Two members that stay are in step (R94): the two majorities that agree with them meet in a station of R, and its
announcement ties their shown contents and AFNs together (R39, R71, R105). -/

namespace Sys2Proof.Machine

open Sys2Proof

/-- A station `j` of R counts for the step agreement of `own`: it is `own`, or it is HEARD and its record is in step (R71). -/
def Roster.agrees (t : Roster) (own : Nat) (ownShown : Option Content) (j : Nat) : Bool :=
  decide (j = own) || t.heard j && t.recordInStep ownShown j

/-- In a list without repetition one member and those of the others that `p` picks are counted together. -/
theorem countP_self_or {l : List Nat} (hnodup : l.Nodup) {own : Nat} (hown : own ∈ l) (p : Nat → Bool) :
    l.countP (fun j => decide (j = own) || p j) = 1 + l.countP (fun j => p j && decide (j ≠ own)) := by
  have hself : l.countP (fun j => decide (j = own)) = 1 := by
    simpa [List.count, beq_eq_decide] using List.count_eq_one_of_mem hnodup hown
  rw [List.countP_eq_countP_filter_add l _ (fun j => decide (j = own)), List.countP_filter, List.countP_filter]
  congr 1
  · rw [← hself]
    exact List.countP_congr fun j _ => by simp; tauto
  · exact List.countP_congr fun j _ => by simp; tauto

/-- Step agreement counts the stations of R that agree, the own one among them (R71). -/
theorem Roster.stepAgreement_eq_countP {t : Roster} {own : Nat} (hnodup : t.r.Nodup) (hown : own ∈ t.r)
    (ownShown : Option Content) : t.stepAgreement own ownShown = t.r.countP (t.agrees own ownShown) := by
  unfold Roster.stepAgreement Roster.heardPeers Roster.agrees
  rw [if_pos hown, countP_self_or hnodup hown, List.filter_filter, ← List.countP_eq_length_filter]
  congr 2
  funext j
  rw [Bool.and_comm (decide _), ← Bool.and_assoc, Bool.and_comm (t.recordInStep _ _)]

/-- Two majorities of one list have a member in common. -/
theorem exists_common_of_majorities {l : List Nat} {p q : Nat → Bool} (hp : l.length < 2 * l.countP p)
    (hq : l.length < 2 * l.countP q) : ∃ j ∈ l, p j = true ∧ q j = true := by
  by_contra hnone
  push Not at hnone
  have hdisjoint : l.countP q ≤ l.countP (fun j => !p j) :=
    List.countP_mono_left fun j hj hqj => by
      have := hnone j hj
      cases hpj : p j <;> simp_all
  have htotal := List.length_eq_countP_add_countP p (l := l)
  simp only [Bool.not_eq_true, Bool.decide_eq_false] at htotal
  omega

theorem Roster.recordInStep_iff (t : Roster) (shown : Option Content) (j : Nat) : t.recordInStep shown j = true ↔
    ∃ rec, t.recordOf j = some rec ∧ rec.heard.state = .member ∧ rec.heard.afn = rec.receiveAfn ∧
      rec.heard.shown = shown := by
  unfold Roster.recordInStep
  cases t.recordOf j <;> simp

/-- A station that agrees is the own one, or HEARD with a MEMBER's record at the own shown and the receive AFN. -/
theorem Roster.agrees_iff (t : Roster) (own : Nat) (shown : Option Content) (j : Nat) : t.agrees own shown j = true ↔
    j = own ∨ t.heard j = true ∧ ∃ rec, t.recordOf j = some rec ∧ rec.heard.state = .member ∧
      rec.heard.afn = rec.receiveAfn ∧ rec.heard.shown = shown := by
  simp [Roster.agrees, Roster.recordInStep_iff]

/-- Settles O32, by the station of R that agrees with both. -/
theorem stayingMembersAreInStep : Obligations.StayingMembersAreInStep := by
  intro ta tb a b shownA shownB afnA afnB hr hnodup hab ha hb htalk hafnA hafnB hself hpeer hmajorityA hmajorityB
  rw [Roster.stepAgreement_eq_countP hnodup ha] at hmajorityA
  rw [Roster.stepAgreement_eq_countP (hr ▸ hnodup) (hr ▸ hb), ← hr] at hmajorityB
  obtain ⟨j, -, hagreesA, hagreesB⟩ := exists_common_of_majorities hmajorityA hmajorityB
  rw [Roster.agrees_iff] at hagreesA hagreesB
  rcases hagreesA with rfl | ⟨hheardA, recA, hrecA, -, hstepA, hshownA⟩
  · rcases hagreesB with rfl | ⟨hheardB, recB, hrecB, -, hstepB, hshownB⟩
    · exact absurd rfl hab
    · obtain ⟨hown, hafn⟩ := hself recB hheardB hrecB
      exact ⟨hown.symm.trans hshownB, hafn.symm.trans (hstepB.trans (hafnB j recB hheardB hrecB))⟩
  · rcases hagreesB with rfl | ⟨hheardB, recB, hrecB, -, hstepB, hshownB⟩
    · obtain ⟨hown, hafn⟩ := hpeer recA hheardA hrecA
      exact ⟨hshownA.symm.trans hown, (hafnA j recA hheardA hrecA).symm.trans (hstepA.symm.trans hafn)⟩
    · have hsame := htalk j recA recB hheardA hheardB hrecA hrecB
      refine ⟨by rw [← hshownA, ← hshownB, hsame], ?_⟩
      rw [← hafnA j recA hheardA hrecA, ← hafnB j recB hheardB hrecB, ← hstepA, ← hstepB, hsame]

end Sys2Proof.Machine
end

section
/-! The reports of the Input Port that arrive in the PCLK domain: arrivals, LEAVE and REJOIN (R46, R87, R102, R104, R113 to R115,
R142). -/

namespace Sys2Proof.Machine

open Sys2Proof

/-! ## The next report -/

/-- The reports `rest` alone are still on their way (R142). -/
def State.withReports (s : State) (rest : List InputReport) : State :=
  { s with transit := { s.transit with toPclk := rest } }

theorem State.takeReport_eq {s : State} {r : InputReport} {rest : List InputReport} (h : s.transit.toPclk = r :: rest) :
    s.takeReport = s.withReports rest := by
  simp [State.takeReport, State.withReports, Transit.takeReport, h]

/-- A command that takes the next report on its way has its effect (R142). -/
theorem State.whenNext_report {s : State} {r : InputReport} {rest : List InputReport} (h : s.transit.toPclk = r :: rest)
    (t : State) : s.whenNext (s.transit.nextReport r) t = t := by
  rw [(s.transit.nextReport_iff r).2 (by rw [h]; rfl), State.whenNext_true]

/-- The report queue after an event, with room and without (R177, R180). -/
theorem State.postEvent_report (s : State) (e : Event) :
    (s.report.queue.length < 4 → (s.postEvent e).report = { s.report with
      queue := s.report.queue ++ [⟨.event s.tb.afn e, s.report.lost⟩], lost := 0 }) ∧
    (4 ≤ s.report.queue.length → (s.postEvent e).report = { s.report with lost := s.report.lost + 1 }) :=
  ⟨fun h => s.report.post_room _ h, fun h => s.report.post_full _ h⟩

/-! ## LEAVE (R87, R104, R113, R114) -/

theorem ConsentUnit.abstain_voting {c : ConsentUnit} (h : c.role = .voting) : c.abstain = { c with
    role := .abstaining, order := .none, hold := .pendingWithdrawal, target := none, targetReady := false } := by
  simp [ConsentUnit.abstain, h]

theorem ConsentUnit.abstain_other {c : ConsentUnit} (h : c.role ≠ .voting) : c.abstain = c := by
  simp [ConsentUnit.abstain, h]

/-- A first cause raised in MEMBER becomes pending, and before the latch a VOTING member abstains (R87, R104). -/
theorem State.raise_first {s : State} (hm : s.member.state = .member) (hw : s.member.withdrawal = none)
    (cause : WithdrawalCause) : s.raise cause = { s with
      member := { s.member with withdrawal := some cause }
      consent := if s.link.latchTaken = false then s.consent.abstain else s.consent } := by
  simp [State.raise, Membership.raise, hm, hw]

/-- What a LEAVE does can reach the Membership Controller, the Consent Unit and the report queue alone. -/
theorem State.actOnLeave_eq (s : State) : s.actOnLeave =
    { s with member := s.actOnLeave.member, consent := s.actOnLeave.consent, report := s.actOnLeave.report } := by
  unfold State.actOnLeave State.leaveMember
  repeat' split
  all_goals rfl

theorem State.actOnLeave_member {s : State} (hm : s.member.state = .member) : s.actOnLeave = s.leaveMember := by
  simp [State.actOnLeave, hm]

theorem State.leaveMember_first {s : State} (hw : s.member.withdrawal = none) : s.leaveMember = s.raise .leave := by
  simp [State.leaveMember, hw]

theorem State.leaveMember_again {s : State} {cause : WithdrawalCause} (hw : s.member.withdrawal = some cause) :
    s.leaveMember = { s with
      member := if cause = .leave then s.member else { s.member with park := true } } := by
  unfold State.leaveMember
  rw [hw]
  dsimp only
  split <;> rfl

theorem Membership.parkFrom_eq {m : Membership} (h : m.state = .listen ∨ m.state = .joining ∨ m.state = .resting) :
    m.parkFrom = { m with
      state := .parked
      emptyRun := if m.state = .joining then 0 else m.emptyRun
      rest := if m.state = .resting then 0 else m.rest } := by
  rcases h with h | h | h <;> simp [Membership.parkFrom, h]

theorem State.actOnLeave_parks {s : State}
    (h : s.member.state = .listen ∨ s.member.state = .joining ∨ s.member.state = .resting) :
    s.actOnLeave = ({ s with member := s.member.parkFrom } : State).postEvent (.parked s.member.state) := by
  rcases h with h | h | h <;> simp only [State.actOnLeave, State.parkNow, h]

theorem State.actOnLeave_parked {s : State} (h : s.member.state = .parked) :
    s.actOnLeave = { s with member := { s.member with rejoin := false } } := by simp [State.actOnLeave, h]

/-! ## REJOIN (R115) -/

theorem State.actOnRejoin_eq (s : State) :
    s.actOnRejoin = { s with member := s.actOnRejoin.member, report := s.actOnRejoin.report } := by
  unfold State.actOnRejoin
  split <;> rfl

theorem State.actOnRejoin_parked {s : State} (h : s.member.state = .parked) :
    s.actOnRejoin = { s with member := { s.member with rejoin := true } } := by simp [State.actOnRejoin, h]

theorem State.actOnRejoin_ignored {s : State} (h : s.member.state = .listen ∨ s.member.state = .joining ∨
    s.member.state = .member ∨ s.member.state = .resting) :
    s.actOnRejoin = s.postEvent (.rejoinIgnored s.member.state) := by
  rcases h with h | h | h | h <;> simp only [State.actOnRejoin, h]

/-- Settles O47: an arrival, then LEAVE and REJOIN, each by membership state. -/
theorem requestsActByMembershipState : Obligations.RequestsActByMembershipState := by
  intro s rest hr
  refine ⟨fun hnext => ?_, fun hnext => ?_, fun hnext => ?_⟩
  · refine (exec_of_running hr rfl).trans (congrArg _ ?_)
    rw [State.frameOpenArrival, State.whenNext_report hnext, State.takeReport_eq hnext]
    rfl
  · have hop : s.leave = (s.withReports rest).actOnLeave := by
      rw [State.leave, State.whenNext_report hnext, State.takeReport_eq hnext]
    refine ⟨_, (exec_of_running hr rfl).trans (congrArg _ hop), (s.withReports rest).actOnLeave_eq,
      fun hm hw => ?_, fun cause hm hw => ?_, fun hparks => ?_, fun hparked => ?_⟩
    · rw [State.actOnLeave_member (s := s.withReports rest) hm, State.leaveMember_first (s := s.withReports rest) hw,
        State.raise_first (s := s.withReports rest) hm hw]
      refine ⟨rfl, rfl, fun hvoting hlatch => ?_, fun hkept => ?_⟩
      · exact (if_pos hlatch).trans (ConsentUnit.abstain_voting hvoting)
      · rcases hkept with hrole | hlatch
        · exact (ite_congr rfl (fun _ => ConsentUnit.abstain_other hrole) fun _ => rfl).trans (ite_self _)
        · exact if_neg (show ¬s.link.latchTaken = false by simp [hlatch])
    · rw [State.actOnLeave_member (s := s.withReports rest) hm, State.leaveMember_again (s := s.withReports rest) hw]
      exact ⟨rfl, rfl, rfl⟩
    · rw [State.actOnLeave_parks (s := s.withReports rest) hparks]
      obtain ⟨hroom, hfull⟩ :=
        ({ s.withReports rest with member := s.member.parkFrom } : State).postEvent_report (.parked s.member.state)
      exact ⟨Membership.parkFrom_eq hparks, hroom, hfull, rfl⟩
    · rw [State.actOnLeave_parked (s := s.withReports rest) hparked]
      exact ⟨rfl, rfl, rfl⟩
  · have hop : s.rejoin = (s.withReports rest).actOnRejoin := by
      rw [State.rejoin, State.whenNext_report hnext, State.takeReport_eq hnext]
    refine ⟨_, (exec_of_running hr rfl).trans (congrArg _ hop), (s.withReports rest).actOnRejoin_eq,
      fun hparked => ?_, fun hignored => ?_⟩
    · rw [State.actOnRejoin_parked (s := s.withReports rest) hparked]
      exact ⟨rfl, rfl⟩
    · rw [State.actOnRejoin_ignored (s := s.withReports rest) hignored]
      exact ⟨rfl, (s.withReports rest).postEvent_report (.rejoinIgnored s.member.state)⟩

end Sys2Proof.Machine
end

section
/-! The roster at a frame start that does not bring the station to LISTEN: the slots still PENDING are missed, and the
outcomes become the previous ones (R62, R64). -/

namespace Sys2Proof.Machine

open Sys2Proof

/-! ## One entry at a frame start (R64) -/

/-- Step 1 of R64 reaches the first `n` entries. -/
theorem missFirst_getElem? (n : Nat) (es : List RosterEntry) (i : Nat) :
    (missFirst n es)[i]? = (es[i]?).map (fun e => if i < n then e.missIfPending else e) := by
  induction es generalizing n i with
  | nil => cases n <;> simp [missFirst]
  | cons e es ih =>
    cases n with
    | zero => simp [missFirst]
    | succ n => cases i <;> simp [missFirst, ih]

/-- A slot still PENDING at the frame start is a frame without HEARD (R62, R64). -/
theorem RosterEntry.nextFrame_of_pending {e : RosterEntry} (h : e.outcome = .pending) : e.missIfPending.nextFrame =
    { outcome := .pending, previous := .pending, claimed := .unknown,
      record := if min (e.missRun + 1) 255 = 8 then none else e.record,
      heardRun := 0, missRun := min (e.missRun + 1) 255 } := by
  rw [RosterEntry.missIfPending, if_pos h, RosterEntry.nextFrame, show e.miss.outcome = .pending from h]
  rfl

theorem RosterEntry.missIfPending_of_settled {e : RosterEntry} (h : e.outcome ≠ .pending) : e.missIfPending = e :=
  if_neg h

/-- An entry after the frame start that closes a frame (R64). -/
theorem Roster.entry_frameStart {t : Roster} {i : Nat} (hi : i < t.entries.length) (n : Nat) {cause : FrameCause}
    (hc : cause ≠ .first) (ended : TimebaseState) : (t.frameStart n cause ended).entry i =
      (if ended = .tracking ∧ i < n then (t.entry i).missIfPending else t.entry i).nextFrame := by
  have hsome : t.entries[i]? = some t.entries[i] := List.getElem?_eq_getElem hi
  simp only [Roster.frameStart, if_neg hc, Roster.entry, List.getElem?_map]
  by_cases htracking : ended = .tracking
  · simp [Roster.missedSlots, htracking, missFirst_getElem?, hsome]
  · simp [Roster.missedSlots, htracking, hsome]

theorem Roster.frameStart_previousR (t : Roster) (n : Nat) (cause : FrameCause) (ended : TimebaseState) :
    (t.frameStart n cause ended).previousR = t.r := by
  unfold Roster.frameStart Roster.missedSlots
  dsimp only
  repeat' split
  all_goals rfl

/-- Settles O12: the roster that a station which stays takes to the new frame, and each entry of it. -/
theorem rosterClosesTheFrame : Obligations.RosterClosesTheFrame := by
  intro s hr hwrap hlength hparked hresting hjoining
  have hstays : ¬s.entersListen (s.mark.handedMissRun .natural s.tb.state) := by
    rw [State.entersListen_iff _ _ _ (by simp)]
    rintro (h | h | h)
    · exact hjoining h
    · exact hparked h
    · exact hresting h
  obtain ⟨-, -, hroster, -⟩ := s.frameStart_stay .natural s.tb.state (by simp) hstays
  refine ⟨_, (exec_of_running hr rfl).trans (congrArg _ (State.naturalFrameStart_eq hwrap)), ?_⟩
  rw [hroster]
  refine ⟨rfl, s.roster.frameStart_previousR _ _ _, rfl, fun i hi => ?_⟩
  rw [Roster.entry_frameStart (by omega) _ (by simp)]
  by_cases hcounted : s.tb.state = .tracking ∧ i < s.settings.n
  · by_cases hpending : (s.roster.entry i).outcome = .pending
    · rw [if_pos hcounted, if_pos ⟨hcounted.1, hcounted.2, hpending⟩, RosterEntry.nextFrame_of_pending hpending]
    · rw [if_pos hcounted, if_neg fun h => hpending h.2.2, RosterEntry.missIfPending_of_settled hpending]
      rfl
  · rw [if_neg hcounted, if_neg fun h => hcounted ⟨h.1, h.2.1⟩]
    rfl

end Sys2Proof.Machine
end

section
/-! The Membership Controller and the Consent Unit at a roll-call close: the empty roll calls of a joiner, and the withdrawal
causes of a MEMBER (R65, R78, R87, R95, R103 to R105). -/

namespace Sys2Proof.Machine

open Sys2Proof

/-! ## The causes of a MEMBER (R104, R105) -/

/-- A cause raised in MEMBER becomes pending unless one is pending already (R104). -/
theorem State.raise_of_member {s : State} (hm : s.member.state = .member) (cause : WithdrawalCause) :
    (s.raise cause).member = { s.member with withdrawal := s.member.withdrawal.or (some cause) } := by
  rw [State.raise_member, State.raise_withdrawal hm]
  cases s.member.withdrawal <;> rfl

/-- The unheard run of a MEMBER after the roll call (R105). -/
def State.countUnheard (s : State) (results : Results) : State :=
  { s with member := s.member.countUnheard results.unheard }

/-- The first of the three causes of R105 that holds, if one does. -/
def State.rollCallCause (s : State) (results : Results) : Option WithdrawalCause :=
  if (s.roster.entry s.own).claimed = .no then some .claimLost
  else if (s.countUnheard results).member.unheardRun = 2 then some .unheard
  else if s.own ∈ s.roster.r ∧ 2 * results.stepAgreement ≤ s.roster.r.length then some .outOfStep
  else none

/-- Of two alternatives in order, a first one that has an answer keeps it. -/
theorem ite_some_or {α : Type} (p : Prop) [Decidable p] (a : α) (o o' : Option α) :
    (if p then some a else o).or o' = if p then some a else o.or o' := by split <;> rfl

theorem State.claimLostCheck_member {s : State} (hm : s.member.state = .member) : s.claimLostCheck.member =
    { s.member with
      withdrawal := s.member.withdrawal.or
        (if (s.roster.entry s.own).claimed = .no then some .claimLost else none) } := by
  unfold State.claimLostCheck
  split
  · exact State.raise_of_member hm _
  · simp

theorem State.unheardCheck_eq (s : State) (results : Results) : s.unheardCheck results =
    if (s.countUnheard results).member.unheardRun = 2 then (s.countUnheard results).raise .unheard
    else s.countUnheard results := rfl

theorem State.unheardCheck_member {s : State} (hm : s.member.state = .member) (results : Results) :
    (s.unheardCheck results).member = { s.member.countUnheard results.unheard with
      withdrawal := s.member.withdrawal.or
        (if (s.countUnheard results).member.unheardRun = 2 then some .unheard else none) } := by
  rw [State.unheardCheck_eq]
  split
  · exact State.raise_of_member (s := s.countUnheard results) hm _
  · rw [Option.or_none]
    rfl

theorem State.outOfStepCheck_member {s : State} (hm : s.member.state = .member) (results : Results) :
    (s.outOfStepCheck results).member = { s.member with
      withdrawal := s.member.withdrawal.or
        (if s.own ∈ s.roster.r ∧ 2 * results.stepAgreement ≤ s.roster.r.length then some .outOfStep else none) } := by
  unfold State.outOfStepCheck
  split
  · exact State.raise_of_member hm _
  · simp

/-- The unheard run and the pending withdrawal of a MEMBER after a roll call: a cause pending before it stays (R104, R105). -/
theorem State.memberRollCall_member {s : State} (hm : s.member.state = .member) (results : Results) :
    (s.memberRollCall results).member = { s.member.countUnheard results.unheard with
      withdrawal := s.member.withdrawal.or (s.rollCallCause results) } := by
  have hclaim := State.claimLostCheck_member hm
  have hunheard := State.unheardCheck_member (s := s.claimLostCheck) (by rw [hclaim]; exact hm) results
  have hstep := State.outOfStepCheck_member (s := s.claimLostCheck.unheardCheck results)
    (by rw [hunheard, hclaim]; exact hm) results
  have hown : (s.claimLostCheck.unheardCheck results).own = s.own := State.own_congr (by simp)
  rw [hown] at hstep
  have hrun : (s.claimLostCheck.countUnheard results).member.unheardRun = (s.countUnheard results).member.unheardRun := by
    simp only [State.countUnheard, hclaim, Membership.countUnheard]
  rw [State.memberRollCall, hstep, hunheard, hrun, hclaim]
  simp only [State.unheardCheck_frame, State.claimLostCheck_frame, State.rollCallCause, Membership.countUnheard,
    Option.or_assoc, ite_some_or, Option.none_or]

/-! ## A MEMBER abstains where a withdrawal is pending before the latch (R78, R87) -/

/-- The vote of a MEMBER that abstains. -/
structure ConsentUnit.Abstains (c : ConsentUnit) : Prop where
  role : c.role = .abstaining
  order : c.order = .none
  hold : c.hold = .pendingWithdrawal
  target : c.target = none
  targetReady : c.targetReady = false

/-- A MEMBER abstains, or it votes with no withdrawal pending (R78). -/
def State.VotesOrAbstains (s : State) : Prop :=
  s.consent.Abstains ∨ s.consent.role = .voting ∧ s.member.withdrawal = none

theorem ConsentUnit.abstain_abstains {c : ConsentUnit} (h : c.Abstains ∨ c.role = .voting) : c.abstain.Abstains := by
  rcases h with h | hvoting
  · rw [ConsentUnit.abstain_other (by rw [h.role]; simp)]
    exact h
  · rw [ConsentUnit.abstain_voting hvoting]
    exact ⟨rfl, rfl, rfl, rfl, rfl⟩

/-- The decision of a MEMBER: it abstains unless it has claimed and no withdrawal is pending (R78, R79, R83). -/
theorem ConsentUnit.decideVote_member (c : ConsentUnit) (withdrawal : Option WithdrawalCause) (own : Nat) (t : Roster)
    (heardAll : Bool) (table : SlotTable) :
    (c.decideVote .member withdrawal own t heardAll table).Abstains ∨
      (c.decideVote .member withdrawal own t heardAll table).role = .voting ∧ withdrawal = none := by
  by_cases hvotes : withdrawal = none ∧ (t.entry own).claimed = .yes
  · have hrole : voteRole .member withdrawal (t.entry own).claimed = .voting := (if_pos rfl).trans (if_pos hvotes)
    exact Or.inr ⟨hrole, hvotes.1⟩
  · left
    have hrole : voteRole .member withdrawal (t.entry own).claimed = .abstaining := (if_pos rfl).trans (if_neg hvotes)
    constructor <;> simp [ConsentUnit.decideVote, hrole, targetBase, targetOf]

theorem State.raise_votesOrAbstains {s : State} (h : s.VotesOrAbstains) (hm : s.member.state = .member)
    (hlatch : s.link.latchTaken = false) (cause : WithdrawalCause) : (s.raise cause).VotesOrAbstains := by
  left
  cases hw : s.member.withdrawal with
  | none =>
    rw [State.raise_first hm hw]
    dsimp only
    rw [if_pos hlatch]
    exact ConsentUnit.abstain_abstains (h.imp_right fun hvoting => hvoting.1)
  | some pending =>
    have habstains : s.consent.Abstains := h.resolve_right fun hvoting => by simp [hw] at hvoting
    rw [State.raise_consent _ _ (by rw [habstains.role]; simp)]
    exact habstains

theorem State.memberRollCall_votesOrAbstains {s : State} (h : s.VotesOrAbstains) (hm : s.member.state = .member)
    (hlatch : s.link.latchTaken = false) (results : Results) : (s.memberRollCall results).VotesOrAbstains := by
  have hclaim : s.claimLostCheck.VotesOrAbstains := by
    unfold State.claimLostCheck
    split
    · exact State.raise_votesOrAbstains h hm hlatch _
    · exact h
  have hmclaim : s.claimLostCheck.member.state = .member := by rw [State.claimLostCheck_member hm]; exact hm
  have hunheard : (s.claimLostCheck.unheardCheck results).VotesOrAbstains := by
    rw [State.unheardCheck_eq]
    split
    · exact State.raise_votesOrAbstains (s := s.claimLostCheck.countUnheard results) hclaim hmclaim
        (by simpa [State.countUnheard] using hlatch) _
    · exact hclaim
  unfold State.memberRollCall State.outOfStepCheck
  split
  · refine State.raise_votesOrAbstains hunheard ?_ (by simpa using hlatch) _
    rw [State.unheardCheck_member hmclaim]
    exact hmclaim
  · exact hunheard

/-! ## The roll-call close -/

/-- A roll-call close in a TRACKING frame as the Membership Controller finds it: the roster has taken the levels, and the
Consent Unit has decided (R65, R78). -/
def State.rollCallDecided (s : State) (cells : List Samples) : State :=
  ((s.moveToEnd s.settings.vl (Config.stations * s.settings.cl)).rosterRollCall (rollCallLevels cells)).consentRollCall
    (s.calledResults cells)

/-- The Membership Controller takes the results last (R87, R103, R105). -/
theorem State.rollCallClose_decided {s : State} (h : s.tb.state = .tracking) (cells : List Samples) :
    s.rollCallClose cells = (s.rollCallDecided cells).membershipRollCall (s.calledResults cells) :=
  if_pos ((s.moveToEnd_kept _ _).1.trans h)

theorem State.rollCallClose_seeking {s : State} (h : s.tb.state = .seeking) (cells : List Samples) :
    s.rollCallClose cells = { s with
      tb := (s.moveToEnd s.settings.vl (Config.stations * s.settings.cl)).tb
      member := { s.member with
        unheardRun := if s.member.state = .member then s.member.unheardRun else 0 } } := by
  unfold State.rollCallClose
  dsimp only
  rw [if_neg (by rw [(s.moveToEnd_kept _ _).1, h]; simp)]
  by_cases hm : s.member.state = .member
  · rw [if_pos hm]
    exact if_pos hm
  · rw [if_neg hm]
    exact if_neg hm

theorem State.rollCallDecided_votesOrAbstains {s : State} (hm : s.member.state = .member) (cells : List Samples) :
    (s.rollCallDecided cells).VotesOrAbstains := by
  have hdecided := s.consent.decideVote_member s.member.withdrawal s.own
    (s.rollCallDecided cells).roster (s.calledResults cells).heardAll s.table
  rw [← hm] at hdecided
  exact hdecided

theorem State.rollCallDecided_kept (s : State) (cells : List Samples) :
    (s.rollCallDecided cells).member = s.member ∧ (s.rollCallDecided cells).tb.afn = s.tb.afn ∧
    (s.rollCallDecided cells).own = s.own ∧ (s.rollCallDecided cells).link.latchTaken = s.link.latchTaken ∧
    (s.rollCallDecided cells).roster =
      { s.calledRoster cells with results := some (s.calledResults cells) } :=
  ⟨rfl, (s.moveToEnd_kept _ _).2.1, rfl, rfl, rfl⟩

/-- In MEMBER the Membership Controller does what R105 says. -/
theorem State.membershipRollCall_of_member {s : State} (hm : s.member.state = .member) (results : Results) :
    s.membershipRollCall results = s.memberRollCall results := if_pos hm

/-- In JOINING the Membership Controller does what R103 says. -/
theorem State.membershipRollCall_of_joining {s : State} (hj : s.member.state = .joining) (results : Results) :
    s.membershipRollCall results = s.joinerRollCall results := by
  simp [State.membershipRollCall, hj]

theorem State.membershipRollCall_of_other {s : State} (hm : s.member.state ≠ .member) (hj : s.member.state ≠ .joining)
    (results : Results) :
    s.membershipRollCall results = { s with member := { s.member with unheardRun := 0 } } := by
  simp [State.membershipRollCall, hm, hj]

/-- Settles O29: the SEEKING frame, and in a TRACKING frame a JOINING station, a MEMBER, and a station in any other state. -/
theorem rollCallCloseDecidesMembership : Obligations.RollCallCloseDecidesMembership := by
  intro s cells hr
  refine ⟨s.rollCallClose cells, exec_of_running hr rfl, ?_⟩
  cases hframe : s.tb.state with
  | seeking =>
    rw [State.rollCallClose_seeking hframe]
    exact ⟨rfl, fun _ => ⟨rfl, rfl, rfl, (s.moveToEnd_kept _ _).2.1, rfl, rfl⟩, fun hm => if_neg hm,
      fun h => by cases h⟩
  | tracking =>
    obtain ⟨hmember, hafn, hown, hlatch, hresults⟩ := s.rollCallDecided_kept cells
    have hvotes := fun hm => State.rollCallDecided_votesOrAbstains (s := s) hm cells
    rw [State.rollCallClose_decided hframe]
    generalize s.rollCallDecided cells = x at *
    rw [← hmember, ← hafn, ← hown, ← hlatch]
    have hroster : (x.membershipRollCall (s.calledResults cells)).roster = x.roster := by simp
    have hset : x.roster.results = some (s.calledResults cells) := by rw [hresults]
    rw [hroster]
    generalize s.calledResults cells = results at *
    by_cases hm : x.member.state = .member
    · have hvoted := fun hopen => State.memberRollCall_votesOrAbstains (hvotes (hmember ▸ hm)) hm hopen results
      have hafter := State.memberRollCall_member hm results
      have htb : (x.memberRollCall results).tb = x.tb := by simp
      rw [State.membershipRollCall_of_member hm, htb]
      refine ⟨by rw [hafter]; rfl, (fun h => by cases h), fun h => absurd hm h, fun _ => ⟨results, hset,
        fun hj => absurd hj (by simp [hm]), fun _ => rfl, fun _ => ⟨?_, fun cause hw => ?_, fun hw => ?_,
          fun hopen hpending => ?_⟩⟩⟩
      · rw [hafter]; rfl
      · rw [hafter, hw]; rfl
      · rw [hafter, hw]; rfl
      · obtain ⟨hrole, horder, hhold, htarget, hready⟩ := (hvoted hopen).resolve_right fun h => hpending h.2
        exact ⟨hrole, horder, hhold, htarget, hready⟩
    · by_cases hj : x.member.state = .joining
      · rw [State.membershipRollCall_of_joining hj]
        exact ⟨rfl, (fun h => by cases h), fun _ => rfl, fun _ => ⟨results, hset, fun _ => ⟨rfl, rfl⟩,
          fun h => absurd hj h, fun h => absurd h hm⟩⟩
      · rw [State.membershipRollCall_of_other hm hj]
        exact ⟨rfl, (fun h => by cases h), fun _ => rfl, fun _ => ⟨results, hset, fun h => absurd h hj, fun _ => rfl,
          fun h => absurd h hm⟩⟩

end Sys2Proof.Machine
end

section
/-! The swap line of a MEMBER that withdraws: what is released, what is cleared, and where the station goes (R91, R96, R111,
R112, R126, R180). -/

namespace Sys2Proof.Machine

open Sys2Proof

/-! ## The end of a transmission (R44) -/

/-- A transmission that ends early changes the transmit phase alone. -/
theorem State.settleTransmission_eq (s : State) : s.settleTransmission =
    { s with link := { s.link with tx := s.settleTransmission.link.tx } } := by
  unfold State.settleTransmission
  split <;> rfl

theorem State.settleTransmission_permitted {s : State} (h : s.mayDrive = true) : s.settleTransmission = s := if_pos h

theorem State.settleTransmission_forbidden {s : State} (h : s.mayDrive = false) :
    s.settleTransmission.link.tx ≠ .sending := by
  unfold State.settleTransmission LinkInterface.endEarly
  rw [if_neg (by simp [h])]
  dsimp only
  split
  · simp
  · assumption

/-! ## The frame report (R178) -/

/-- The report of the frame is the last thing that the swap line changes, and it follows what is queued already. -/
theorem State.reportFrame_eq (s : State) (before : MembershipState) (outcome : FrameOutcome) :
    s.reportFrame before outcome = { s with report := (s.reportFrame before outcome).report } := by
  unfold State.reportFrame
  split <;> rfl

theorem State.reportFrame_queue (s : State) (before : MembershipState) (outcome : FrameOutcome) :
    ∃ more, (s.reportFrame before outcome).report.queue = s.report.queue ++ more := by
  unfold State.reportFrame
  split
  · rcases s.report.postFrame_queue s.settings.reportMode (s.frameRecord outcome) with h | h
    · exact ⟨[], by rw [List.append_nil]; exact h⟩
    · exact ⟨_, h⟩
  · exact ⟨[], (List.append_nil _).symm⟩

/-! ## The slots at a withdrawal (R126) -/

theorem SlotTable.releaseShown_none {t : SlotTable} (h : t.shown = none) : t.releaseShown = t := by
  simp [SlotTable.releaseShown, h]

theorem SlotTable.releaseShown_some {t : SlotTable} {k : Nat} (h : t.shown = some k) :
    t.releaseShown = { t.free k with shown := none } := by
  simp [SlotTable.releaseShown, h]

/-! ## The Membership Controller at a withdrawal (R111) -/

theorem Membership.withdraw_parks {m : Membership} {cause : WithdrawalCause} (h : cause = .leave ∨ m.park = true) :
    m.withdraw cause = { m with state := .parked, withdrawal := none, unheardRun := 0, park := false } := if_pos h

theorem Membership.withdraw_rests {m : Membership} {cause : WithdrawalCause} (h : ¬(cause = .leave ∨ m.park = true)) :
    m.withdraw cause = { m with state := .resting, withdrawal := none, unheardRun := 0, rest := 3 } := if_neg h

/-- A withdrawal leaves nothing pending and no run of a MEMBER. -/
theorem Membership.withdraw_clears (m : Membership) (cause : WithdrawalCause) :
    (m.withdraw cause).withdrawal = none ∧ (m.withdraw cause).unheardRun = 0 ∧ (m.withdraw cause).park = false := by
  by_cases h : cause = .leave ∨ m.park = true
  · rw [Membership.withdraw_parks h]
    exact ⟨rfl, rfl, rfl⟩
  · rw [Membership.withdraw_rests h]
    exact ⟨rfl, rfl, Bool.not_eq_true _ ▸ fun hpark => h (Or.inr hpark)⟩

/-! ## The swap line of a withdrawal (R91, R111) -/

theorem State.swapLine_of_withdrawal {s : State} {cause : WithdrawalCause} (hm : s.member.state = .member)
    (hw : s.member.withdrawal = some cause) : s.swapLine =
      ((s.moveTo s.settings.sw 1).withdrawAtSwap cause).reportFrame .member .withdrew := by
  have hword : (s.moveTo s.settings.sw 1).swapWord = .withdraws cause := by
    simp [State.swapWord, hm, hw]
  simp only [State.swapLine, State.takeSwapLine, hword, State.actOnWord, State.swapOutcome, State.moveTo_member, hm]

/-- A PARKED station still drives in TRACKING, and a RESTING one never does (R22, R43). -/
theorem State.mayDrive_parked {s : State} (hm : s.member.state = .parked) (ht : s.tb.state = .tracking) :
    s.mayDrive = true := by simp [State.mayDrive, MembershipState.mayDrive, hm, ht]

theorem State.mayDrive_resting {s : State} (hm : s.member.state = .resting) : s.mayDrive = false := by
  simp [State.mayDrive, MembershipState.mayDrive, hm]

/-- A withdrawal that has taken effect, with its transmission still to be settled (R111). -/
def State.withdrawn (s : State) (cause : WithdrawalCause) : State :=
  ({ s with
    link := { s.link with claimOwed := true }
    table := s.table.releaseShown
    consent := { s.consent with receptionRun := 0 }
    member := s.member.withdraw cause } : State).postEvent (.withdrew cause)

theorem State.withdrawAtSwap_eq (s : State) (cause : WithdrawalCause) :
    s.withdrawAtSwap cause = (s.withdrawn cause).settleTransmission := rfl

/-- What a withdrawal sets in the blocks that it reaches. -/
theorem State.withdrawAtSwap_sets (s : State) (cause : WithdrawalCause) :
    (s.withdrawAtSwap cause).link = { s.link with tx := (s.withdrawAtSwap cause).link.tx, claimOwed := true } ∧
    (s.withdrawAtSwap cause).table = s.table.releaseShown ∧
    (s.withdrawAtSwap cause).consent = { s.consent with receptionRun := 0 } ∧
    (s.withdrawAtSwap cause).member = s.member.withdraw cause ∧
    (s.withdrawAtSwap cause).report = s.report.post (.event s.tb.afn (.withdrew cause)) := by
  refine ⟨congrArg State.link (s.withdrawn cause).settleTransmission_eq, ?_⟩
  simp only [State.withdrawAtSwap_eq, State.settleTransmission_frame]
  exact ⟨rfl, rfl, rfl, rfl⟩

/-- A station that parks in TRACKING keeps its transmission, and one that rests ends it (R44, R111). -/
theorem State.withdrawAtSwap_tx (s : State) (cause : WithdrawalCause) :
    ((s.member.withdraw cause).state = .parked → s.tb.state = .tracking →
      (s.withdrawAtSwap cause).link.tx = s.link.tx) ∧
    ((s.member.withdraw cause).state = .resting → (s.withdrawAtSwap cause).link.tx ≠ .sending) := by
  refine ⟨fun hparked htracking => ?_, fun hresting => ?_⟩
  · have hdrives : (s.withdrawn cause).mayDrive = true := State.mayDrive_parked hparked htracking
    rw [State.withdrawAtSwap_eq, State.settleTransmission_permitted hdrives]
    rfl
  · have hquiet : (s.withdrawn cause).mayDrive = false := State.mayDrive_resting hresting
    exact State.settleTransmission_forbidden hquiet

/-- Settles O34: each block at the withdrawal, the slots, the membership state and its transmission, and the event. -/
theorem withdrawalReleasesShown : Obligations.WithdrawalReleasesShown := by
  intro s cause hr hm hw hroom
  obtain ⟨hlink, htable, hconsent, hmember, hreport⟩ := (s.moveTo s.settings.sw 1).withdrawAtSwap_sets cause
  obtain ⟨hparks, hrests⟩ := (s.moveTo s.settings.sw 1).withdrawAtSwap_tx cause
  obtain ⟨hstate, hafn, -, -⟩ := s.moveTo_kept s.settings.sw 1
  obtain ⟨more, hmore⟩ := ((s.moveTo s.settings.sw 1).withdrawAtSwap cause).reportFrame_queue .member .withdrew
  obtain ⟨hready, -, -, hskipped, hshown, -⟩ := s.table.releaseShown_kept
  simp only [State.moveTo_link, State.moveTo_table, State.moveTo_consent, State.moveTo_member, State.moveTo_report, hafn,
    hstate] at hlink htable hconsent hmember hreport hparks hrests
  refine ⟨_, (exec_of_running hr rfl).trans (congrArg _ (State.swapLine_of_withdrawal hm hw)), ?_⟩
  simp only [State.reportFrame_link, State.reportFrame_table, State.reportFrame_member]
  rw [htable, hmember]
  refine ⟨?_, hshown, hready, fun k hk => ?_, fun hnone => SlotTable.releaseShown_none hnone, hskipped,
    (s.member.withdraw_clears cause).1, (s.member.withdraw_clears cause).2.1, (s.member.withdraw_clears cause).2.2,
    fun hpark => ?_, fun hrest => ?_, more, ?_⟩
  · rw [State.ext_iff]
    simpa [htable, hconsent, hmember] using hlink
  · exact congrArg SlotTable.slots (SlotTable.releaseShown_some hk)
  · have hparked := Membership.withdraw_parks hpark
    rw [hparked] at hparks ⊢
    exact ⟨rfl, rfl, hparks rfl⟩
  · have hresting := Membership.withdraw_rests hrest
    rw [hresting] at hrests ⊢
    exact ⟨rfl, rfl, hrests rfl⟩
  · rw [hmore, hreport, ReportPort.post_room _ _ hroom]

end Sys2Proof.Machine
end

section
/-! The target of a vote: the list that the members of R have in common, and its oldest entry newer than the base (R80, R81,
R94). -/

namespace Sys2Proof.Machine

open Sys2Proof

/-! ## The common list (R80) -/

theorem Roster.mem_commonList {t : Roster} {j0 : Nat} {rest : List Nat} (h : t.r = j0 :: rest) (c : Content) :
    c ∈ t.commonList ↔ ∀ j ∈ t.r, c ∈ t.readyOf j := by
  simp [Roster.commonList, h]

/-- The common list keeps the order of the first ready list. -/
theorem Roster.commonList_sublist {t : Roster} {j0 : Nat} {rest : List Nat} (h : t.r = j0 :: rest) :
    t.commonList.Sublist (t.readyOf j0) := by
  unfold Roster.commonList
  rw [h]
  exact List.filter_sublist

/-- R and the ready lists of its members are all that the common list rests on (R80, R94). -/
theorem Roster.commonList_congr {t u : Roster} (hr : u.r = t.r) (hready : ∀ j ∈ t.r, u.readyOf j = t.readyOf j) :
    u.commonList = t.commonList := by
  unfold Roster.commonList
  rw [hr]
  cases hcase : t.r with
  | nil => rfl
  | cons j0 rest =>
    rw [hcase, List.forall_mem_cons] at hready
    obtain ⟨hfirst, hrest⟩ := hready
    dsimp only
    rw [hfirst]
    refine List.filter_congr fun c _ => ?_
    rw [Bool.eq_iff_iff, List.all_eq_true, List.all_eq_true]
    exact forall₂_congr fun k hk => by rw [hrest k hk]

/-! ## The target (R81, R82) -/

theorem targetOf_eq_none_iff (base : Option Content) (common : List Content) :
    targetOf (some base) common = none ↔ ∀ c ∈ common, newerThan c base = false := by
  simp [targetOf]

/-- In a list of rising contents, the first that is newer than the base is the oldest that is. -/
theorem targetOf_oldest {base : Option Content} {common : List Content} {T : Content}
    (hrises : common.Pairwise (fun a b => newer b a = true)) (h : targetOf (some base) common = some T) :
    T ∈ common ∧ newerThan T base = true ∧ ∀ c ∈ common, newerThan c base = true → c = T ∨ newer c T = true := by
  obtain ⟨hnewer, before, after, hsplit, hbefore⟩ := List.find?_eq_some_iff_append.1 h
  subst hsplit
  refine ⟨by simp, hnewer, fun c hc hcnewer => ?_⟩
  rcases List.mem_append.1 hc with hearlier | hlater
  · exact absurd hcnewer (by simpa using hbefore c hearlier)
  · rcases List.mem_cons.1 hlater with hsame | hafter
    · exact Or.inl hsame
    · rw [List.pairwise_append, List.pairwise_cons] at hrises
      exact Or.inr (hrises.2.1.1 c hafter)

/-- Settles O31: what the first newer entry of the common list is, when there is none, and what the list rests on. -/
theorem targetIsTheOldestCommonContent : Obligations.TargetIsTheOldestCommonContent := by
  intro t j0 rest base hr hrises
  have hmem := Roster.mem_commonList hr
  refine ⟨fun T hT => ?_, ?_, fun u hu hready => ?_⟩
  · obtain ⟨hcommon, hnewer, holdest⟩ := targetOf_oldest (hrises.sublist (Roster.commonList_sublist hr)) hT
    exact ⟨(hmem T).1 hcommon, hnewer, fun c hc => holdest c ((hmem c).2 hc)⟩
  · rw [targetOf_eq_none_iff]
    exact forall_congr' fun c => by rw [hmem c]
  · have hsame := Roster.commonList_congr hu hready
    exact ⟨hsame, by rw [hsame]⟩

end Sys2Proof.Machine
end

section
/-! The decision of the Consent Unit at a roll-call close: the role, the base and the target, and the hold reason with its order
(R78, R79, R82 to R84). -/

namespace Sys2Proof.Machine

open Sys2Proof

/-! ## The four conditions (R82 to R84) -/

theorem SlotTable.holdsReady_iff (t : SlotTable) (c : Content) :
    t.holdsReady c = true ↔ ∃ i ∈ t.readyQueue, t.contentOf i = some c := by
  simp [SlotTable.holdsReady, SlotTable.readySlotOf]

/-- The step condition: every other member of R has a record in step with the station (R84). -/
theorem stepCondition_iff (t : Roster) (own : Nat) (shown : Option Content) : stepCondition t own shown = true ↔
    ∀ j ∈ t.r, j = own ∨ ∃ rec, t.recordOf j = some rec ∧ rec.heard.state = .member ∧
      rec.heard.afn = rec.receiveAfn ∧ rec.heard.shown = shown := by
  simp [stepCondition, Roster.recordInStep_iff]

/-- The first of the four conditions that fails, one by one (R83). -/
theorem votingHold_reception (stepHolds : Bool) (target : Option Content) (ready : Bool) :
    votingHold false stepHolds target ready = .reception := rfl
theorem votingHold_step (target : Option Content) (ready : Bool) : votingHold true false target ready = .step := rfl
theorem votingHold_noTarget (ready : Bool) : votingHold true true none ready = .noTarget := rfl
theorem votingHold_notReady {target : Option Content} (h : target ≠ none) :
    votingHold true true target false = .notReady := by simp [votingHold, h]
theorem votingHold_none {target : Option Content} (h : target ≠ none) :
    votingHold true true target true = .none := by simp [votingHold, h]

/-! ## Role and base (R78, R79) -/

theorem voteRole_voting {claimed : Claimed} (h : claimed = .yes) : voteRole .member none claimed = .voting :=
  (if_pos rfl).trans (if_pos ⟨rfl, h⟩)

theorem voteRole_abstaining {withdrawal : Option WithdrawalCause} {claimed : Claimed}
    (h : withdrawal ≠ none ∨ claimed ≠ .yes) : voteRole .member withdrawal claimed = .abstaining :=
  (if_pos rfl).trans (if_neg fun hvotes => h.elim (· hvotes.1) (· hvotes.2))

theorem voteRole_notVoting {state : MembershipState} (h : state ≠ .member) (withdrawal : Option WithdrawalCause)
    (claimed : Claimed) : voteRole state withdrawal claimed = .notVoting := if_neg h

/-- Without the whole of R heard, or with R empty, no base is taken (R79). -/
theorem targetBase_unheard {t : Roster} {heardAll : Bool} (h : ¬(heardAll = true ∧ t.r ≠ [])) (role : VoteRole)
    (state : MembershipState) (shown : Option Content) : targetBase role state t heardAll shown = none :=
  if_neg fun hbase => h hbase.symm

/-- Neither a VOTING member nor a JOINING station: no base is taken (R79). -/
theorem targetBase_otherwise {role : VoteRole} {state : MembershipState} (hrole : role ≠ .voting)
    (hstate : state ≠ .joining) (t : Roster) (heardAll : Bool) (shown : Option Content) :
    targetBase role state t heardAll shown = none := by
  simp [targetBase, hrole, hstate]

/-- The base of a VOTING member is its own shown (R79). -/
theorem targetBase_voting {t : Roster} {heardAll : Bool} (h : heardAll = true ∧ t.r ≠ []) (state : MembershipState)
    (shown : Option Content) : targetBase .voting state t heardAll shown = some shown :=
  (if_pos h.symm).trans (if_pos rfl)

/-- The base of a JOINING station is the shown that the records of R have in common (R79). -/
theorem targetBase_joining {t : Roster} {heardAll : Bool} (h : heardAll = true ∧ t.r ≠ []) (shown : Option Content) :
    targetBase .notVoting .joining t heardAll shown = t.commonShown :=
  (if_pos h.symm).trans rfl

theorem Roster.commonShown_of_common {t : Roster} {common : Option Content} (hr : t.r ≠ [])
    (h : ∀ j ∈ t.r, t.shownOf j = common) : t.commonShown = some common := by
  obtain ⟨j0, rest, hcons⟩ := List.exists_cons_of_ne_nil hr
  rw [hcons, List.forall_mem_cons] at h
  obtain ⟨rfl, hrest⟩ := h
  simpa [Roster.commonShown, hcons] using hrest

/-- Two records of R with different shown contents leave nothing in common (R79). -/
theorem Roster.commonShown_of_differ {t : Roster} {j k : Nat} (hj : j ∈ t.r) (hk : k ∈ t.r)
    (h : t.shownOf j ≠ t.shownOf k) : t.commonShown = none := by
  unfold Roster.commonShown
  split
  · rfl
  · rename_i j0 rest hcons
    rw [hcons, List.mem_cons] at hj hk
    refine if_neg fun hall => h ?_
    have hsame (i : Nat) (hi : i = j0 ∨ i ∈ rest) : t.shownOf i = t.shownOf j0 := by
      rcases hi with rfl | hi
      · rfl
      · simpa using List.all_eq_true.1 hall i hi
    rw [hsame j hj, hsame k hk]

/-! ## The decision (R78 to R83) -/

section
variable (c : ConsentUnit) (state : MembershipState) (withdrawal : Option WithdrawalCause) (own : Nat) (t : Roster)
  (heardAll : Bool) (table : SlotTable)

theorem ConsentUnit.decideVote_role : (c.decideVote state withdrawal own t heardAll table).role =
    voteRole state withdrawal (t.entry own).claimed := rfl

theorem ConsentUnit.decideVote_target : (c.decideVote state withdrawal own t heardAll table).target =
    targetOf (targetBase (voteRole state withdrawal (t.entry own).claimed) state t heardAll table.shownContent)
      t.commonList := rfl

/-- In any role, the target is held READY exactly where a READY slot has it for its content (R82). -/
theorem ConsentUnit.decideVote_targetReady_iff :
    (c.decideVote state withdrawal own t heardAll table).targetReady = true ↔
      ∃ T, (c.decideVote state withdrawal own t heardAll table).target = some T ∧
        ∃ i ∈ table.readyQueue, table.contentOf i = some T := by
  rw [c.decideVote_target]
  simp only [ConsentUnit.decideVote]
  split
  · rename_i T hT
    simp [SlotTable.holdsReady_iff, hT]
  · rename_i hT
    simp [hT]

/-- A VOTING member holds for the first condition that fails, and vetoes where one fails (R83). -/
theorem ConsentUnit.decideVote_voting {c d : ConsentUnit} {own : Nat} {t : Roster} {heardAll : Bool} {table : SlotTable}
    (hclaimed : (t.entry own).claimed = .yes) (hd : d = c.decideVote .member none own t heardAll table) :
    d = { c with
      role := .voting
      target := d.target
      targetReady := d.targetReady
      hold := votingHold heardAll (stepCondition t own table.shownContent) d.target d.targetReady
      order := if d.hold = .none then .none else .veto } := by
  subst hd
  simp [ConsentUnit.decideVote, voteRole_voting hclaimed]

theorem ConsentUnit.decideVote_voting_target (hclaimed : (t.entry own).claimed = .yes) :
    (c.decideVote .member none own t heardAll table).target =
      if heardAll = true ∧ t.r ≠ [] then targetOf (some table.shownContent) t.commonList else none := by
  rw [c.decideVote_target, voteRole_voting hclaimed]
  split
  · rename_i hbase
    rw [targetBase_voting hbase]
  · rename_i hbase
    rw [targetBase_unheard hbase]
    rfl

/-- An ABSTAINING member has no base, and so no target (R79). -/
theorem ConsentUnit.decideVote_abstaining (h : withdrawal ≠ none ∨ (t.entry own).claimed ≠ .yes) :
    c.decideVote .member withdrawal own t heardAll table = { c with
      role := .abstaining, order := .none, hold := .pendingWithdrawal, target := none, targetReady := false } := by
  simp [ConsentUnit.decideVote, voteRole_abstaining h, targetBase_otherwise, targetOf]

/-- A station that is no MEMBER does not vote, whatever its target (R78, R83). -/
theorem ConsentUnit.decideVote_notVoting (h : state ≠ .member) :
    c.decideVote state withdrawal own t heardAll table = { c with
      role := .notVoting, order := .none, hold := .notVoting
      target := (c.decideVote state withdrawal own t heardAll table).target
      targetReady := (c.decideVote state withdrawal own t heardAll table).targetReady } := by
  simp [ConsentUnit.decideVote, voteRole_notVoting h]

/-- The records of R that a JOINING station hears whole carry one shown: that is its base (R79). -/
theorem ConsentUnit.decideVote_joining_target {common : Option Content} (hbase : heardAll = true ∧ t.r ≠ [])
    (hcommon : ∀ j ∈ t.r, t.shownOf j = common) :
    (c.decideVote .joining withdrawal own t heardAll table).target = targetOf (some common) t.commonList := by
  rw [c.decideVote_target, voteRole_notVoting (by simp), targetBase_joining hbase,
    Roster.commonShown_of_common hbase.2 hcommon]

/-- Without such a shown, a JOINING station has no target (R79). -/
theorem ConsentUnit.decideVote_joining_no_target
    (h : heardAll = false ∨ t.r = [] ∨ ∃ j ∈ t.r, ∃ k ∈ t.r, t.shownOf j ≠ t.shownOf k) :
    (c.decideVote .joining withdrawal own t heardAll table).target = none := by
  rw [c.decideVote_target, voteRole_notVoting (by simp)]
  by_cases hbase : heardAll = true ∧ t.r ≠ []
  · obtain ⟨j, hj, k, hk, hdiffer⟩ := (h.resolve_left (by simp [hbase.1])).resolve_left hbase.2
    rw [targetBase_joining hbase, Roster.commonShown_of_differ hj hk hdiffer]
    rfl
  · rw [targetBase_unheard hbase]
    rfl

/-- A station that is neither MEMBER nor JOINING has no base, and so no target (R79). -/
theorem ConsentUnit.decideVote_otherwise (hmember : state ≠ .member) (hjoining : state ≠ .joining) :
    c.decideVote state withdrawal own t heardAll table = { c with
      role := .notVoting, order := .none, hold := .notVoting, target := none, targetReady := false } := by
  simp [ConsentUnit.decideVote, voteRole_notVoting hmember, targetBase_otherwise, hjoining, targetOf]

end

/-! ## Causes raised at the roll-call close (R87, R105) -/

/-- From `s` to `t` either a withdrawal becomes pending, or neither it nor the vote changes. -/
def State.RaisesOrKeeps (s t : State) : Prop :=
  s.member.withdrawal = none ∧ t.member.withdrawal ≠ none ∨
    t.member.withdrawal = s.member.withdrawal ∧ t.consent = s.consent

theorem State.RaisesOrKeeps.trans {s t u : State} (h : s.RaisesOrKeeps t) (h' : t.RaisesOrKeeps u) :
    s.RaisesOrKeeps u := by
  rcases h with ⟨hnone, hraised⟩ | ⟨hw, hc⟩
  · rcases h' with ⟨habsent, -⟩ | ⟨hw', -⟩
    · exact absurd habsent hraised
    · exact Or.inl ⟨hnone, hw' ▸ hraised⟩
  · unfold State.RaisesOrKeeps at h' ⊢
    rw [← hw, ← hc]
    exact h'

theorem State.raise_raisesOrKeeps (s : State) (cause : WithdrawalCause) : s.RaisesOrKeeps (s.raise cause) := by
  by_cases hfirst : s.member.state = .member ∧ s.member.withdrawal = none
  · obtain ⟨hm, hw⟩ := hfirst
    exact Or.inl ⟨hw, by simp [State.raise_first hm hw]⟩
  · refine Or.inr ⟨?_, if_neg fun h => hfirst ⟨h.1, h.2.1⟩⟩
    exact congrArg Membership.withdrawal (if_neg hfirst)

theorem State.memberRollCall_raisesOrKeeps (s : State) (results : Results) :
    s.RaisesOrKeeps (s.memberRollCall results) := by
  have hclaim : s.RaisesOrKeeps s.claimLostCheck := by
    unfold State.claimLostCheck
    split
    · exact s.raise_raisesOrKeeps _
    · exact Or.inr ⟨rfl, rfl⟩
  have hunheard (x : State) : x.RaisesOrKeeps (x.unheardCheck results) := by
    rw [State.unheardCheck_eq]
    split
    · exact (x.countUnheard results).raise_raisesOrKeeps _
    · exact Or.inr ⟨rfl, rfl⟩
  have hstep (x : State) : x.RaisesOrKeeps (x.outOfStepCheck results) := by
    unfold State.outOfStepCheck
    split
    · exact x.raise_raisesOrKeeps _
    · exact Or.inr ⟨rfl, rfl⟩
  exact (hclaim.trans (hunheard _)).trans (hstep _)

theorem State.membershipRollCall_raisesOrKeeps (s : State) (results : Results) :
    s.RaisesOrKeeps (s.membershipRollCall results) := by
  unfold State.membershipRollCall
  split
  · exact s.memberRollCall_raisesOrKeeps results
  · split <;> exact Or.inr ⟨rfl, rfl⟩

/-- In a TRACKING frame the Consent Unit keeps its decision unless a withdrawal becomes pending at the close (R78, R87). -/
theorem State.rollCallClose_consent {s : State} (h : s.tb.state = .tracking) (cells : List Samples)
    (hw : (s.rollCallClose cells).member.withdrawal = s.member.withdrawal) : (s.rollCallClose cells).consent =
      s.consent.decideVote s.member.state s.member.withdrawal s.own (s.calledRoster cells)
        (s.calledResults cells).heardAll s.table := by
  rw [State.rollCallClose_decided h] at hw ⊢
  have hraise := (s.rollCallDecided cells).membershipRollCall_raisesOrKeeps (s.calledResults cells)
  rcases hraise with ⟨hnone, hraised⟩ | ⟨-, hkept⟩
  · exact absurd (hw.trans hnone) hraised
  · rw [hkept]
    rfl

/-! ## Consent or veto (R83) -/

/-- Settles O30: a VOTING member, an ABSTAINING one, a JOINING station, any other, and what the roll-call close takes. -/
theorem votingMemberConsentsOrVetoes : Obligations.VotingMemberConsentsOrVetoes := by
  refine ⟨?_, ?_, ?_, ?_, ?_⟩
  · intro c d own t heardAll table hclaimed hd
    have hvote := ConsentUnit.decideVote_voting hclaimed hd
    have hready := c.decideVote_targetReady_iff .member none own t heardAll table
    have htarget := c.decideVote_voting_target own t heardAll table hclaimed
    rw [← hd] at hready htarget
    obtain ⟨hrole, -, -, horder, hhold, hverdict, hrun⟩ := (ConsentUnit.mk.injEq ..).mp hvote
    refine ⟨hrole, hrun, hverdict, hready, ?_, ?_, ?_, ?_, htarget⟩
    · rintro rfl
      exact ⟨htarget.trans (if_neg (by simp)), hhold.trans (votingHold_reception _ _ _)⟩
    · rintro rfl hstep
      rw [← stepCondition_iff, Bool.not_eq_true] at hstep
      rw [hhold, hstep, votingHold_step]
    · rintro rfl hstep
      rw [(stepCondition_iff t own table.shownContent).2 hstep] at hhold
      refine ⟨fun hnone => ?_, fun hsome hmissing => ?_, fun hheld => ?_⟩
      · rw [hhold, hnone, votingHold_noTarget]
      · rw [hhold, hmissing, votingHold_notReady hsome]
      · obtain ⟨T, hT, -⟩ := hready.1 hheld
        rw [hhold, hheld, votingHold_none (by simp [hT])]
    · by_cases hnone : d.hold = .none <;> simp [horder, hnone]
  · rintro c d withdrawal own t heardAll table habstains rfl
    exact c.decideVote_abstaining withdrawal own t heardAll table habstains
  · rintro c d withdrawal own t heardAll table rfl
    exact ⟨c.decideVote_notVoting .joining withdrawal own t heardAll table (by simp),
      c.decideVote_targetReady_iff .joining withdrawal own t heardAll table,
      fun _ hall hr hcommon => c.decideVote_joining_target withdrawal own t heardAll table ⟨hall, hr⟩ hcommon,
      c.decideVote_joining_no_target withdrawal own t heardAll table⟩
  · rintro c d state withdrawal own t heardAll table hmember hjoining rfl
    exact c.decideVote_otherwise state withdrawal own t heardAll table hmember hjoining
  · intro s cells hr htracking
    have hroster := (State.rollCallClose_tracking htracking cells).1
    refine ⟨s.rollCallClose cells, s.calledResults cells, exec_of_running hr rfl, by rw [hroster], fun hw => ?_⟩
    rw [State.rollCallClose_consent htracking cells hw, hroster]
    rfl

end Sys2Proof.Machine
end

section
/-! The swap line of a MEMBER that stays: the order of the Consent Unit, and the table after a swap to its target (R91, R92,
R107, R116, R124, R125). -/

namespace Sys2Proof.Machine

open Sys2Proof

/-! ## The FILLING slot through a swap (R116, R124) -/

theorem SlotTable.fillingSlot_congr {t u : SlotTable} (hlength : u.slots.length = t.slots.length)
    (h : ∀ k, (u.slot k).state = .filling ↔ (t.slot k).state = .filling) : u.fillingSlot = t.fillingSlot := by
  have hmarks : u.slots.map (fun r => decide (r.state = .filling)) =
      t.slots.map (fun r => decide (r.state = .filling)) := by
    refine List.ext_getElem (by simpa using hlength) fun k hu ht => ?_
    have hku : k < u.slots.length := by simpa using hu
    have hkt : k < t.slots.length := by simpa using ht
    simpa [SlotTable.slot, hku, hkt] using h k
  have hfirst (l : List SlotRecord) : l.findIdx? (fun r => decide (r.state = .filling)) =
      (l.map (fun r => decide (r.state = .filling))).findIdx? id := by rw [List.findIdx?_map]; rfl
  unfold SlotTable.fillingSlot
  rw [hfirst, hfirst, hmarks]

theorem SlotTable.freeAll_length (stale : List Nat) (t : SlotTable) :
    (t.freeAll stale).slots.length = t.slots.length := by
  induction stale generalizing t with
  | nil => rfl
  | cons i rest ih => rw [SlotTable.freeAll, ih]; simp [SlotTable.free]

theorem SlotTable.swapTo_length (t : SlotTable) (c : Content) : (t.swapTo c).slots.length = t.slots.length := by
  unfold SlotTable.swapTo
  split
  · simp [SlotTable.skip, SlotTable.freeAll_length, SlotTable.showSlot]
  · rfl

theorem SlotTable.Consistent.ready_state {t : SlotTable} (h : t.Consistent) {k : Nat} (hk : k ∈ t.readyQueue) :
    (t.slot k).state = .ready := by
  obtain ⟨-, -, hbound, -, hready, -⟩ := h
  exact (hready k (hbound k hk)).1 hk

theorem SlotTable.Consistent.shown_state {t : SlotTable} (h : t.Consistent) {k : Nat} (hk : t.shown = some k) :
    (t.slot k).state = .shown := by
  obtain ⟨-, -, -, hbound, -, hshown, -⟩ := h
  exact (hshown k (hbound k hk)).1 hk

/-- A swap moves READY and SHOWN slots alone, and makes none FILLING (R116, R124). -/
theorem SlotTable.swapTo_fillingSlot {t : SlotTable} (hcons : t.Consistent) (hord : t.Ordered) {i : Nat} {c : Content}
    (hi : i ∈ t.readyQueue) (hc : t.contentOf i = some c) : (t.swapTo c).fillingSlot = t.fillingSlot := by
  obtain ⟨-, -, -, -, -, hslot⟩ := t.swapTo_spec i c hcons hord hi hc
  refine SlotTable.fillingSlot_congr (t.swapTo_length c) fun k => ?_
  rw [hslot]
  split
  · rename_i hk
    simp [hk, hcons.ready_state hi]
  · split
    · rename_i hfreed
      rcases hfreed with hshown | ⟨hready, -⟩
      · simp [State.freeSlot, hcons.shown_state hshown]
      · simp [State.freeSlot, hcons.ready_state hready]
    · rfl

/-! ## The order of the Consent Unit (R92) -/

theorem ConsentUnit.ordersSwap_consented {c : ConsentUnit} (hrole : c.role = .voting) (hhold : c.hold = .none)
    (hverdict : c.verdict = .swap) : c.ordersSwap = c.target := if_pos ⟨hrole, hhold, hverdict⟩

/-- A swap is ordered on the own consent, a target and the verdict SWAP (R92). -/
theorem ConsentUnit.ordersSwap_isSome_iff (c : ConsentUnit) : c.ordersSwap.isSome = true ↔
    c.role = .voting ∧ c.hold = .none ∧ c.target ≠ none ∧ c.verdict = .swap := by
  unfold ConsentUnit.ordersSwap
  split <;> simp_all [Option.isSome_iff_ne_none]

theorem State.stayAtSwap_swaps {s : State} {T : Content} (h : s.consent.ordersSwap = some T) :
    s.stayAtSwap = { s with table := s.table.swapTo T } := by simp [State.stayAtSwap, h]

theorem State.stayAtSwap_repeats {s : State} (h : s.consent.ordersSwap = none) : s.stayAtSwap = s := by
  simp [State.stayAtSwap, h]

/-! ## The swap line (R91, R107) -/

/-- The swap line with its word acted on, and the frame still to be reported. -/
def State.swapActed (s : State) : State := (s.moveTo s.settings.sw 1).actOnWord s.swapWord

/-- The word, its effect, and then the report of the frame (R91, R107, R178). -/
theorem State.swapLine_eq (s : State) :
    s.swapLine = s.swapActed.reportFrame s.member.state (s.swapOutcome s.swapWord) := rfl

theorem State.swapWord_stays {s : State} (hm : s.member.state = .member) (hw : s.member.withdrawal = none) :
    s.swapWord = .stays := by simp [State.swapWord, hm, hw]

theorem State.swapActed_of_stay {s : State} (hm : s.member.state = .member) (hw : s.member.withdrawal = none) :
    s.swapActed = (s.moveTo s.settings.sw 1).stayAtSwap := by
  rw [State.swapActed, State.swapWord_stays hm hw]
  rfl

/-- Settles O33: what the swap line leaves alone, the swap to a target that is ordered, and the repeat. -/
theorem stayingMemberSwapsOrRepeats : Obligations.StayingMemberSwapsOrRepeats := by
  intro s hr hm hw hsw hfl hll hcons hord
  have hmove := s.moveTo_inside s.settings.sw 1 hsw hfl (Nat.le_refl 1) hll
  have hline := s.swapLine_eq
  rw [State.swapActed_of_stay hm hw] at hline
  have htable : s.swapLine.table = (s.moveTo s.settings.sw 1).stayAtSwap.table := by rw [hline]; simp
  refine ⟨s.swapLine, exec_of_running hr rfl, ?_, ?_, fun T i hrole hhold htarget hverdict hi hc => ?_,
    fun hrepeat => ?_⟩
  · rw [hline, State.ext_iff]
    simp
  · have htb : s.swapLine.tb = (s.moveTo s.settings.sw 1).tb := by rw [hline]; simp
    rw [htb]
    exact hmove
  · have horder : s.consent.ordersSwap = some T := (ConsentUnit.ordersSwap_consented hrole hhold hverdict).trans htarget
    obtain ⟨hshown, hrefused, hdefective, hqueue, hskipped, hslot⟩ := s.table.swapTo_spec i T hcons hord hi hc
    have hfilling := SlotTable.swapTo_fillingSlot hcons hord hi hc
    rw [State.stayAtSwap_swaps (s := s.moveTo s.settings.sw 1) horder] at htable
    replace htable : s.swapLine.table = s.table.swapTo T := htable
    rw [htable]
    have hnew : (s.table.swapTo T).slot i = { s.table.slot i with state := .shown } := (hslot i).trans (if_pos rfl)
    refine ⟨hshown, by rw [hnew], ?_, fun k hk => ?_, hqueue, fun k hk hki hgone => ?_, hskipped, hrefused, hdefective,
      hfilling⟩
    · rw [SlotTable.contentOf, hnew]
      exact hc
    · have hki : k ≠ i := by
        rintro rfl
        have := hcons.shown_state hk
        rw [hcons.ready_state hi] at this
        cases this
      rw [hslot, if_neg hki, if_pos (Or.inl hk)]
      rfl
    · rw [hslot, if_neg hki, if_pos (Or.inr ⟨hk, hgone⟩)]
      rfl
  · rw [← ConsentUnit.ordersSwap_isSome_iff, Option.not_isSome_iff_eq_none] at hrepeat
    rw [htable, State.stayAtSwap_repeats (s := s.moveTo s.settings.sw 1) hrepeat]
    rfl

end Sys2Proof.Machine
end

section
/-! The FRAME record of a swap line: its fields (R132, R178), the outcome of the word (R92, R93, R107), and its posting by the
report mode (R177, R179). -/

namespace Sys2Proof.Machine

open Sys2Proof

/-! ## Fields of a record (R132, R178) -/

theorem loByte_toNat (w : BitVec 16) : (loByte w).toNat = w.toNat % 256 := by
  simp [loByte, BitVec.extractLsb'_toNat]

theorem getLsbD_one_shiftLeft (k i : Nat) (hi : i < 16) : (1#16 <<< k).getLsbD i = decide (i = k) := by
  have hflag : (1#16 <<< k).getLsbD i = (decide (k < 16) && decide (k = i)) := BitVec.getLsbD_twoPow k i
  rw [hflag, ← Bool.decide_and, decide_eq_decide]
  omega

/-- Bit `i` tells whether the set holds index `i` (Table 13-4). -/
theorem getLsbD_indexBits (r : List Nat) (i : Nat) (hi : i < 16) : (indexBits r).getLsbD i = decide (i ∈ r) := by
  have hfold (w : BitVec 16) :
      (r.foldl (fun w k => w ||| (1#16 <<< k)) w).getLsbD i = (w.getLsbD i || decide (i ∈ r)) := by
    induction r generalizing w with
    | nil => simp
    | cons k rest ih =>
      rw [List.foldl_cons, ih, BitVec.getLsbD_or, getLsbD_one_shiftLeft k i hi, Bool.or_assoc]
      simp [List.mem_cons, Bool.decide_or]
  rw [indexBits, hfold]
  simp

/-! ## The posting of a FRAME record (R177, R179) -/

/-- With a place in the queue, a FRAME record that the report mode posts is the newest, and the last queued FRAME. -/
theorem ReportPort.postFrame_posted {p : ReportPort} (hroom : p.queue.length < 4) {mode : ReportMode} {f : FrameRecord}
    (h : mode = .everyFrame ∨ mode = .onChange ∧ p.lastFrame ≠ some f.key) :
    (p.postFrame mode f).queue = p.queue ++ [⟨.frame f, p.lost⟩] ∧ (p.postFrame mode f).lastFrame = some f.key := by
  have hpost : p.postFrame mode f = p.post (.frame f) := by
    rcases h with rfl | ⟨rfl, hdiffers⟩
    · rfl
    · exact if_neg hdiffers
  rw [hpost, ReportPort.post_room p _ hroom]
  exact ⟨rfl, rfl⟩

theorem ReportPort.postFrame_same {p : ReportPort} {f : FrameRecord} (h : p.lastFrame = some f.key) :
    p.postFrame .onChange f = p := if_pos h

/-- A queue that stands as the swap line found it, or has one event more: no FRAME has come or gone. -/
structure ReportPort.FramesKept (p q : ReportPort) : Prop where
  room : q.queue.length ≤ p.queue.length + 1
  lastFrame : q.lastFrame = p.lastFrame
  frames : ∀ f lost, (⟨.frame f, lost⟩ : QueuedRecord) ∈ q.queue ↔ ⟨.frame f, lost⟩ ∈ p.queue

theorem ReportPort.framesKept_self (p : ReportPort) : p.FramesKept p := ⟨Nat.le_succ _, rfl, fun _ _ => Iff.rfl⟩

theorem ReportPort.framesKept_event (p : ReportPort) (afn : Count16) (e : Event) :
    p.FramesKept (p.post (.event afn e)) := by
  unfold ReportPort.post
  split
  · exact ⟨by simp, rfl, by simp⟩
  · exact ⟨Nat.le_succ _, rfl, fun _ _ => Iff.rfl⟩

/-! ## What a swap-line word does to the report and the hold reason (R107) -/

theorem State.actOnWord_framesKept (s : State) (word : SwapWord) :
    s.report.FramesKept (s.actOnWord word).report := by
  cases word with
  | stays =>
    have hreport : s.stayAtSwap.report = s.report := by simp
    exact hreport ▸ s.report.framesKept_self
  | withdraws cause =>
    obtain ⟨-, -, -, -, hreport⟩ := s.withdrawAtSwap_sets cause
    exact hreport ▸ s.report.framesKept_event _ _
  | joins target => exact s.report.framesKept_event _ _
  | founds => exact s.report.framesKept_event _ _
  | failedJoin target => exact s.report.framesKept_self
  | none => exact s.report.framesKept_self

theorem State.actOnWord_hold (s : State) (word : SwapWord) : (s.actOnWord word).consent.hold = s.consent.hold := by
  cases word with
  | stays => exact congrArg ConsentUnit.hold (by simp [State.actOnWord])
  | withdraws cause =>
    obtain ⟨-, -, hconsent, -, -⟩ := s.withdrawAtSwap_sets cause
    rw [State.actOnWord, hconsent]
  | joins target => rfl
  | founds => rfl
  | failedJoin target => rfl
  | none => rfl

/-! ## The outcome of a frame (R92, R93, R107) -/

theorem State.swapOutcome_stays (s : State) (hm : s.member.state = .member) (hw : s.member.withdrawal = none) :
    s.swapOutcome s.swapWord = if s.consent.ordersSwap.isSome then .swapped else .repeated := by
  rw [State.swapWord_stays hm hw]
  rfl

theorem State.swapOutcome_withdraws {s : State} (hm : s.member.state = .member) (hw : s.member.withdrawal ≠ none) :
    s.swapOutcome s.swapWord = .withdrew := by
  obtain ⟨cause, hcause⟩ := Option.ne_none_iff_exists'.1 hw
  simp [State.swapWord, hm, hcause, State.swapOutcome]

theorem State.swapWord_joiner {s : State} (hj : s.member.state = .joining) : s.swapWord = s.joinerWord := by
  simp [State.swapWord, hj]

/-- A station that is neither MEMBER nor JOINING has the word NONE (R107). -/
theorem State.swapWord_none {s : State}
    (h : s.member.state = .listen ∨ s.member.state = .resting ∨ s.member.state = .parked) : s.swapWord = .none := by
  rcases h with h | h | h <;> simp [State.swapWord, h]

/-- The join conditions of R108 but the target. -/
theorem State.joinReady_iff (s : State) : s.joinReady = true ↔
    s.member.verdictLevel = some .high ∧ s.roster.r ≠ [] ∧ s.consent.targetReady = true ∧
      ∃ results, s.roster.results = some results ∧ results.heardAll = true ∧ results.settled = true := by
  unfold State.joinReady
  cases s.roster.results <;> simp [and_assoc]

theorem State.swapOutcome_joins {s : State} (hj : s.member.state = .joining) (hready : s.joinReady = true) {T : Content}
    (htarget : s.consent.target = some T) : s.swapOutcome s.swapWord = .joined := by
  simp [State.swapWord_joiner hj, State.joinerWord, htarget, hready, State.swapOutcome]

theorem State.swapOutcome_founds {s : State} (hj : s.member.state = .joining) (hready : s.joinReady = false)
    (hempty : s.member.emptyRun = 2) : s.swapOutcome s.swapWord = .founded := by
  rw [State.swapWord_joiner hj]
  cases htarget : s.consent.target <;>
    simp [State.joinerWord, htarget, hready, hempty, Config.emptyRollCallLimit, State.swapOutcome]

/-- A JOINING station that neither joins nor founds has the outcome NONE, a failed join among them (R107, R109). -/
theorem State.swapOutcome_waits {s : State} (hj : s.member.state = .joining)
    (hready : s.joinReady = false ∨ s.consent.target = none) (hempty : s.member.emptyRun ≠ 2) :
    s.swapOutcome s.swapWord = .none := by
  rw [State.swapWord_joiner hj]
  cases htarget : s.consent.target with
  | none => simp [State.joinerWord, htarget, hempty, Config.emptyRollCallLimit, State.swapOutcome]
  | some T =>
    have hwaits : s.joinReady = false := hready.resolve_right (by simp [htarget])
    by_cases hhigh : s.member.verdictLevel = some .high <;>
      simp [State.joinerWord, htarget, hwaits, hempty, hhigh, Config.emptyRollCallLimit, State.swapOutcome]

/-! ## The report of the swap line (R178, R179) -/

/-- The FRAME record that the swap line forms, where it forms one. -/
def State.swapRecord (s : State) : FrameRecord := s.swapActed.frameRecord (s.swapOutcome s.swapWord)

theorem State.swapLine_report {s : State} (h : s.member.state.reports = true) :
    s.swapLine.report = s.swapActed.report.postFrame s.settings.reportMode s.swapRecord := by
  have hmode : s.swapActed.settings = s.settings := by simp [State.swapActed]
  rw [s.swapLine_eq, State.reportFrame, if_pos (by simp [h]), hmode]
  rfl

/-- The values of the record are those that the swap line leaves (R178). -/
theorem State.swapRecord_values (s : State) :
    s.swapRecord.afn = s.swapLine.tb.afn ∧ s.swapRecord.state = s.swapLine.member.state ∧
    s.swapRecord.shown = s.swapLine.table.shownContent ∧ s.swapRecord.readyCount = s.swapLine.table.readyQueue.length ∧
    (∀ i < 16, s.swapRecord.r.getLsbD i = decide (i ∈ s.roster.r)) ∧
    s.swapRecord.hold = s.consent.hold ∧ s.swapRecord.role = s.mark.frameRole ∧
    s.swapRecord.refused.toNat = s.swapLine.table.refused.toNat % 256 ∧
    s.swapRecord.defective.toNat = s.swapLine.table.defective.toNat % 256 ∧
    s.swapRecord.skipped.toNat = s.swapLine.table.skipped.toNat % 256 ∧
    s.swapRecord.underruns.toNat = s.out.underruns.toNat % 256 ∧
    s.swapRecord.strays.toNat = s.mark.strayCount.toNat % 256 ∧
    s.swapRecord.strayInput.toNat = s.input.stray.toNat % 256 := by
  have hhold : s.swapActed.consent.hold = s.consent.hold := (s.moveTo s.settings.sw 1).actOnWord_hold s.swapWord
  have hkept : s.swapActed.mark = s.mark ∧ s.swapActed.roster = s.roster ∧ s.swapActed.input = s.input ∧
      s.swapActed.out = s.out := by simp [State.swapActed]
  obtain ⟨hmark, hroster, hinput, hout⟩ := hkept
  rw [s.swapLine_eq]
  simp only [State.swapRecord, State.frameRecord, State.reportFrame_tb, State.reportFrame_member,
    State.reportFrame_table, SlotTable.readyCount, loByte_toNat, hhold, hmark, hroster, hinput, hout]
  simpa using getLsbD_indexBits s.roster.r

/-- Everything of the Timebase but the position, the phase, the wrap mark and the state before is kept by a move. -/
theorem State.moveTo_tb (s : State) (ln px : Nat) : (s.moveTo ln px).tb = { s.tb with
    ln := (s.moveTo ln px).tb.ln, px := (s.moveTo ln px).tb.px, phase := (s.moveTo ln px).tb.phase,
    wrapMet := (s.moveTo ln px).tb.wrapMet, stateBefore := (s.moveTo ln px).tb.stateBefore } := by
  simp only [State.moveTo, Timebase.moveTo, Timebase.beginAt]
  repeat' split
  all_goals rfl

theorem State.swapActed_of_none {s : State} (h : s.swapWord = .none) : s.swapActed = s.moveTo s.settings.sw 1 := by
  rw [State.swapActed, h]
  rfl

/-- The word NONE has no effect but the counters' move and the report (R107). -/
theorem State.swapLine_of_none {s : State} (h : s.swapWord = .none) : s.swapLine =
    { s with tb := (s.moveTo s.settings.sw 1).tb, report := s.swapLine.report } := by
  rw [s.swapLine_eq, State.swapActed_of_none h, State.reportFrame_eq]
  rfl

/-- In LISTEN and RESTING no FRAME record is formed (R178). -/
theorem State.swapLine_silent {s : State} (h : s.member.state = .listen ∨ s.member.state = .resting) :
    s.swapLine.report = s.report := by
  have hword : s.swapWord = .none := State.swapWord_none (h.imp_right Or.inl)
  have hsilent : s.member.state.reports = false := by rcases h with h | h <;> rw [h] <;> rfl
  rw [s.swapLine_eq, State.swapActed_of_none hword, State.reportFrame, if_neg (by simp [hsilent])]
  rfl

/-- Settles O36: the states with the word NONE; and the record, its outcome by membership state, and its posting. -/
theorem frameRecordSumsUpTheFrame : Obligations.FrameRecordSumsUpTheFrame := by
  refine ⟨fun s hr hstate => ?_, fun s hr hqueue hstate => ?_⟩
  · have hline := State.swapLine_of_none (State.swapWord_none hstate)
    refine ⟨s.swapLine, exec_of_running hr rfl, ?_, ?_, State.swapLine_silent⟩
    · rw [hline]
    · rw [hline]
      exact s.moveTo_tb s.settings.sw 1
  · have hreports : s.member.state.reports = true := by rcases hstate with h | h | h <;> rw [h] <;> rfl
    have hreport := State.swapLine_report hreports
    obtain ⟨hroom, hlast, hframes⟩ : s.report.FramesKept s.swapActed.report :=
      (s.moveTo s.settings.sw 1).actOnWord_framesKept s.swapWord
    refine ⟨s.swapLine, s.swapRecord, exec_of_running hr rfl, s.swapRecord_values, fun hm hw => ?_,
      fun hm hw => State.swapOutcome_withdraws hm hw, fun hj => ⟨?_, ?_, ?_⟩, fun hp => ?_, fun hmode => ?_,
      fun hmode hsame => ?_⟩
    · have houtcome : s.swapRecord.outcome = _ := s.swapOutcome_stays hm hw
      rw [houtcome, ← ConsentUnit.ordersSwap_isSome_iff]
      exact ⟨fun h => if_pos h, fun h => if_neg h⟩
    · intro T results hhigh hr hresults hheard hsettled htarget hheld
      have hready : s.joinReady = true := s.joinReady_iff.2 ⟨hhigh, hr, hheld, results, hresults, hheard, hsettled⟩
      exact State.swapOutcome_joins hj hready htarget
    · intro hr hempty
      have hready : s.joinReady = false := Bool.eq_false_iff.2 fun h => (s.joinReady_iff.1 h).2.1 hr
      exact State.swapOutcome_founds hj hready hempty
    · intro hempty hfails
      refine State.swapOutcome_waits hj ?_ hempty
      by_contra hjoins
      simp only [not_or, Bool.not_eq_false, State.joinReady_iff] at hjoins
      obtain ⟨⟨hhigh, hr, hheld, results, hresults, hheard, hsettled⟩, htarget⟩ := hjoins
      simp [hhigh, hr, hheld, hresults, hheard, hsettled, htarget] at hfails
    · have houtcome : s.swapRecord.outcome = s.swapOutcome s.swapWord := rfl
      rw [houtcome, State.swapWord_none (Or.inr (Or.inr hp))]
      rfl
    · rw [← hlast] at hmode
      obtain ⟨hnewest, hkey⟩ := ReportPort.postFrame_posted (p := s.swapActed.report) (by omega) hmode
      rw [hreport, hnewest]
      exact ⟨⟨_, List.getLast?_concat⟩, hkey⟩
    · rw [← hlast] at hsame
      rw [hreport, hmode, ReportPort.postFrame_same hsame]
      exact ⟨hlast, hframes⟩

end Sys2Proof.Machine
end


section
/-! The Slot Table's records and lists in agreement (R116 to R118): the agreement slot by slot, and the admission, the completion
and the discard of a FILLING slot, which leave the READY and the SHOWN slots alone (R119 to R123). -/

namespace Sys2Proof.Machine

open Sys2Proof

/-! ## Records (R116) -/

/-- A record beyond the four reads FREE. -/
theorem SlotTable.slot_beyond {t : SlotTable} {k : Nat} (hk : t.slots.length ≤ k) : t.slot k = State.freeSlot := by
  simp [SlotTable.slot, hk]

/-- The record of slot `i` is changed, and every other record reads as before. -/
theorem SlotTable.slot_of_modify {t u : SlotTable} {i : Nat} {f : SlotRecord → SlotRecord}
    (hu : u.slots = t.slots.modify i f) (hi : i < t.slots.length) (k : Nat) :
    u.slot k = if k = i then f (t.slot i) else t.slot k := by
  simp only [SlotTable.slot, hu, List.getElem?_modify]
  by_cases hk : k = i
  · subst hk; simp [hi]
  · have hik : ¬i = k := fun h => hk h.symm
    cases t.slots[k]? <;> simp [hk, hik]

/-- What a search of the records by state finds is a slot in that state. -/
theorem SlotTable.slot_of_findIdx {t : SlotTable} {x : SlotState} {i : Nat}
    (h : t.slots.findIdx? (fun r => decide (r.state = x)) = some i) : i < t.slots.length ∧ (t.slot i).state = x := by
  obtain ⟨hi, hx, -⟩ := List.findIdx?_eq_some_iff_getElem.1 h
  exact ⟨hi, by simpa [SlotTable.slot, hi] using hx⟩

theorem SlotTable.slot_of_findIdx_none {t : SlotTable} {x : SlotState} {i : Nat}
    (h : t.slots.findIdx? (fun r => decide (r.state = x)) = none) (hi : i < t.slots.length) : (t.slot i).state ≠ x := by
  rw [List.findIdx?_eq_none_iff] at h
  simpa [SlotTable.slot, hi] using h t.slots[i] (List.getElem_mem hi)

/-! ## The agreement slot by slot (R116, R117) -/

/-- SlotTable.Consistent with its bounds on the slot numbers gone: a record beyond the four reads FREE, and so is in no list. -/
structure SlotTable.Sound (t : SlotTable) : Prop where
  length : t.slots.length = 4
  nodup : t.readyQueue.Nodup
  ready : ∀ k, k ∈ t.readyQueue ↔ (t.slot k).state = .ready
  shown : ∀ k, t.shown = some k ↔ (t.slot k).state = .shown
  content : ∀ k, (t.slot k).content = none ↔ (t.slot k).state = .free
  oneFilling : ∀ j k, (t.slot j).state = .filling → (t.slot k).state = .filling → j = k
  cap : t.readyQueue.length ≤ 3
  room : ∀ k, (t.slot k).state = .filling → t.readyQueue.length ≤ 2

namespace SlotTable.Sound

variable {t : SlotTable}

/-- A slot in any state but FREE is one of the four. -/
theorem lt (h : t.Sound) {k : Nat} (hk : (t.slot k).state ≠ .free) : k < 4 := by
  by_contra hge
  exact hk (by rw [SlotTable.slot_beyond (by have := h.length; omega)]; rfl)

theorem lt_of_filling (h : t.Sound) {k : Nat} (hk : (t.slot k).state = .filling) : k < t.slots.length :=
  h.length ▸ h.lt (by simp [hk])

theorem fillingSlot_eq_some_iff (h : t.Sound) {k : Nat} : t.fillingSlot = some k ↔ (t.slot k).state = .filling := by
  constructor
  · intro hk
    exact (SlotTable.slot_of_findIdx hk).2
  · intro hk
    have hlt := h.lt_of_filling hk
    cases hf : t.fillingSlot with
    | none => exact absurd hk (SlotTable.slot_of_findIdx_none hf hlt)
    | some j => rw [h.oneFilling j k (SlotTable.slot_of_findIdx hf).2 hk]

theorem not_filling_of_none (h : t.Sound) (hnone : t.fillingSlot = none) (k : Nat) : (t.slot k).state ≠ .filling := by
  intro hk
  rw [h.fillingSlot_eq_some_iff.2 hk] at hnone
  cases hnone

end SlotTable.Sound

theorem SlotTable.consistent_iff (t : SlotTable) : t.Consistent ↔ t.Sound := by
  constructor
  · rintro ⟨hlength, hnodup, hqueue, hshownBound, hready, hshown, hcontent, hone, hcap, hroom⟩
    have hbeyond {k : Nat} (hk : ¬k < 4) : t.slot k = State.freeSlot := SlotTable.slot_beyond (by omega)
    have hfilling {k : Nat} (hk : (t.slot k).state = .filling) : k < 4 := by
      by_contra hge; rw [hbeyond hge] at hk; cases hk
    refine ⟨hlength, hnodup, fun k => ?_, fun k => ?_, fun k => ?_,
      fun j k hj hk => hone j (hfilling hj) k (hfilling hk) hj hk, hcap, fun k hk => hroom ?_⟩
    · by_cases hk : k < 4
      · exact hready k hk
      · exact iff_of_false (fun h => hk (hqueue k h)) (by simp [hbeyond hk, State.freeSlot])
    · by_cases hk : k < 4
      · exact hshown k hk
      · exact iff_of_false (fun h => hk (hshownBound k h)) (by simp [hbeyond hk, State.freeSlot])
    · by_cases hk : k < 4
      · exact hcontent k hk
      · simp [hbeyond hk, State.freeSlot]
    · by_contra hnone
      exact SlotTable.slot_of_findIdx_none (x := .filling) (by simpa [SlotTable.fillingSlot] using hnone)
        (hlength ▸ hfilling hk) hk
  · intro h
    refine ⟨h.length, h.nodup, fun k hk => h.lt (by simp [(h.ready k).1 hk]), fun k hk => h.lt (by simp [(h.shown k).1 hk]),
      fun k _ => h.ready k, fun k _ => h.shown k, fun k _ => h.content k, fun j _ k _ => h.oneFilling j k, h.cap,
      fun hsome => ?_⟩
    obtain ⟨k, hk⟩ := Option.isSome_iff_exists.1 hsome
    exact h.room k (h.fillingSlot_eq_some_iff.1 hk)

/-- A slot is READY or SHOWN. -/
def SlotTable.Held (t : SlotTable) (k : Nat) : Prop := k ∈ t.readyQueue ∨ t.shown = some k

theorem SlotTable.Sound.held_iff {t : SlotTable} (h : t.Sound) (k : Nat) :
    t.Held k ↔ (t.slot k).state = .ready ∨ (t.slot k).state = .shown := by
  rw [SlotTable.Held, h.ready, h.shown]

theorem SlotTable.Sound.not_held {t : SlotTable} (h : t.Sound) {i : Nat}
    (hi : (t.slot i).state = .free ∨ (t.slot i).state = .filling) : ¬t.Held i := by
  rw [h.held_iff]
  rcases hi with hi | hi <;> simp [hi]

/-! ## The contents of the lists (R118) -/

theorem SlotTable.contents_congr {t u : SlotTable} {l : List Nat} (h : ∀ k ∈ l, u.slot k = t.slot k) :
    l.filterMap u.contentOf = l.filterMap t.contentOf :=
  List.filterMap_congr fun k hk => congrArg SlotRecord.content (h k hk)

theorem SlotTable.shownContent_congr {t u : SlotTable} (hshown : u.shown = t.shown)
    (h : ∀ k, t.shown = some k → u.slot k = t.slot k) : u.shownContent = t.shownContent := by
  rw [SlotTable.shownContent, SlotTable.shownContent, hshown]
  cases hs : t.shown with
  | none => rfl
  | some k => exact congrArg SlotRecord.content (h k hs)

/-- The order speaks of the queue, of the SHOWN reference and of the slots that they name. -/
theorem SlotTable.Ordered.congr {t u : SlotTable} (h : t.Ordered) (hqueue : u.readyQueue = t.readyQueue)
    (hshown : u.shown = t.shown) (hheld : ∀ k, t.Held k → u.slot k = t.slot k) :
    u.Ordered := by
  have hlist : u.readyList = t.readyList := by
    rw [SlotTable.readyList, hqueue]
    exact SlotTable.contents_congr fun k hk => hheld k (Or.inl hk)
  unfold SlotTable.Ordered
  rw [hlist, SlotTable.shownContent_congr hshown fun k hk => hheld k (Or.inr hk)]
  exact h

/-- A content newer than the SHOWN one and every READY one joins the lists (R122). -/
theorem SlotTable.Ordered.append {t u : SlotTable} {c : Content} (h : t.Ordered) (hnewer : t.newerThanHeld c = true)
    (hlist : u.readyList = t.readyList ++ [c]) (hshown : u.shownContent = t.shownContent) : u.Ordered := by
  obtain ⟨horder, hnewerShown⟩ := h
  simp only [SlotTable.newerThanHeld, Bool.and_eq_true, List.all_eq_true] at hnewer
  obtain ⟨hoverShown, hoverReady⟩ := hnewer
  refine ⟨?_, fun d hd r hr => ?_⟩
  · rw [hlist, List.pairwise_append]
    refine ⟨horder, List.pairwise_singleton _ _, fun a ha b hb => ?_⟩
    rw [List.mem_singleton.1 hb]
    exact hoverReady a ha
  · rw [hshown] at hd
    rw [hlist, List.mem_append, List.mem_singleton] at hr
    rcases hr with hr | rfl
    · exact hnewerShown d hd r hr
    · rw [hd] at hoverShown
      exact hoverShown

/-! ## What the Slot Table does between swap lines (R119 to R123) -/

/-- Between swap lines the lists stay in agreement and in order, the READY slots keep their places and their records, with a
completed slot after them, and SHOWN stays. -/
structure SlotTable.Fills (t u : SlotTable) : Prop where
  sound : u.Sound
  ordered : t.Ordered → u.Ordered
  shown : u.shown = t.shown
  queue : t.readyQueue <+: u.readyQueue
  held : ∀ k, t.Held k → u.slot k = t.slot k

theorem SlotTable.Fills.refl {t : SlotTable} (h : t.Sound) : t.Fills t :=
  ⟨h, id, rfl, List.prefix_refl _, fun _ _ => rfl⟩

theorem SlotTable.Fills.trans {t u v : SlotTable} (h : t.Fills u) (h' : u.Fills v) : t.Fills v where
  sound := h'.sound
  ordered := h'.ordered ∘ h.ordered
  shown := h'.shown.trans h.shown
  queue := h.queue.trans h'.queue
  held k hk := (h'.held k (hk.imp (fun hq => h.queue.subset hq) fun hs => h.shown.trans hs)).trans (h.held k hk)

/-- The record of a FREE or FILLING slot becomes FREE, or FILLING where there is room for it (R119, R121, R123). -/
theorem SlotTable.fills_of_modify {t u : SlotTable} (h : t.Sound) {i : Nat} {f : SlotRecord → SlotRecord}
    (hslots : u.slots = t.slots.modify i f) (hqueue : u.readyQueue = t.readyQueue) (hshown : u.shown = t.shown)
    (hlt : i < t.slots.length)
    (hold : (t.slot i).state = .free ∨ (t.slot i).state = .filling)
    (hnew : f (t.slot i) = State.freeSlot ∨
      (f (t.slot i)).state = .filling ∧ (f (t.slot i)).content ≠ none ∧ t.readyQueue.length ≤ 2 ∧
        ∀ k, (t.slot k).state = .filling → k = i) : t.Fills u := by
  have hslot := SlotTable.slot_of_modify hslots hlt
  have hnotHeld := h.not_held hold
  obtain ⟨hnotReady, hnotShown⟩ := not_or.1 hnotHeld
  have hheld (k : Nat) (hk : t.Held k) : u.slot k = t.slot k := by
    rw [hslot, if_neg]
    rintro rfl
    exact hnotHeld hk
  have hfilling (k : Nat) (hk : (u.slot k).state = .filling) : (t.slot k).state = .filling ∨
      k = i ∧ t.readyQueue.length ≤ 2 ∧ ∀ k, (t.slot k).state = .filling → k = i := by
    rw [hslot] at hk
    split at hk
    · rename_i hki
      rcases hnew with hfree | ⟨-, -, hroom, hone⟩
      · rw [hfree] at hk; cases hk
      · exact Or.inr ⟨hki, hroom, hone⟩
    · exact Or.inl hk
  refine ⟨⟨by simp [hslots, h.length], hqueue ▸ h.nodup, fun k => ?_, fun k => ?_, fun k => ?_, fun j k hj hk => ?_,
      hqueue ▸ h.cap, fun k hk => ?_⟩,
    fun hord => hord.congr hqueue hshown hheld, hshown, hqueue ▸ List.prefix_refl _, hheld⟩
  · rw [hqueue, hslot]
    split
    · rename_i hki
      subst hki
      rcases hnew with hfree | ⟨hstate, -⟩
      · simp [hnotReady, hfree, State.freeSlot]
      · simp [hnotReady, hstate]
    · exact h.ready k
  · rw [hshown, hslot]
    split
    · rename_i hki
      subst hki
      rcases hnew with hfree | ⟨hstate, -⟩
      · simp [hnotShown, hfree, State.freeSlot]
      · simp [hnotShown, hstate]
    · exact h.shown k
  · rw [hslot]
    split
    · rcases hnew with hfree | ⟨hstate, hsome, -⟩
      · simp [hfree, State.freeSlot]
      · simp [hstate, hsome]
    · exact h.content k
  · rcases hfilling j hj with hj | ⟨rfl, -, hone⟩ <;> rcases hfilling k hk with hk | ⟨rfl, -, hone'⟩
    · exact h.oneFilling j k hj hk
    · exact hone' j hj
    · exact (hone k hk).symm
    · rfl
  · rw [hqueue]
    rcases hfilling k hk with hk | ⟨-, hroom, -⟩
    · exact h.room k hk
    · exact hroom

/-- A refusal is counted, and changes no record (R119). -/
theorem SlotTable.Sound.fills_counts {t : SlotTable} (h : t.Sound) (refused defective skipped : Count16) :
    t.Fills ⟨t.slots, t.readyQueue, t.shown, refused, defective, skipped⟩ :=
  ⟨{ h with }, id, rfl, List.prefix_refl _, fun _ _ => rfl⟩

/-- A FILLING slot becomes FREE (R122, R123). -/
theorem SlotTable.Sound.fills_free {t u : SlotTable} (h : t.Sound) {i : Nat} (hi : (t.slot i).state = .filling)
    (hslots : u.slots = (t.free i).slots) (hqueue : u.readyQueue = t.readyQueue) (hshown : u.shown = t.shown) : t.Fills u :=
  SlotTable.fills_of_modify h hslots hqueue hshown (h.lt_of_filling hi) (Or.inr hi) (Or.inl rfl)

/-- A FILLING slot stays FILLING and keeps its content (R121). -/
theorem SlotTable.Sound.fills_filling {t u : SlotTable} (h : t.Sound) {i : Nat} {f : SlotRecord → SlotRecord}
    (hi : (t.slot i).state = .filling) (hslots : u.slots = t.slots.modify i f) (hqueue : u.readyQueue = t.readyQueue)
    (hshown : u.shown = t.shown) (hstate : (f (t.slot i)).state = (t.slot i).state)
    (hcontent : (f (t.slot i)).content = (t.slot i).content) : t.Fills u := by
  refine SlotTable.fills_of_modify h hslots hqueue hshown (h.lt_of_filling hi) (Or.inr hi)
    (Or.inr ⟨hstate.trans hi, ?_, h.room i hi, fun k hk => h.oneFilling k i hk hi⟩)
  rw [hcontent, Ne, h.content, hi]
  nofun

theorem SlotTable.discard_fills {t : SlotTable} (h : t.Sound) : t.Fills t.discard := by
  unfold SlotTable.discard
  split
  · exact h.fills_free (h.fillingSlot_eq_some_iff.1 ‹_›) rfl rfl rfl
  · exact SlotTable.Fills.refl h

/-- After a discard no slot is FILLING (R123). -/
theorem SlotTable.discard_not_filling {t : SlotTable} (h : t.Sound) (k : Nat) : (t.discard.slot k).state ≠ .filling := by
  unfold SlotTable.discard
  split
  · rename_i i hi
    have hfreed : ({ t.free i with defective := t.defective + 1 } : SlotTable).slot k = (t.free i).slot k := rfl
    rw [hfreed, SlotTable.free_slot]
    split
    · nofun
    · rename_i hki
      exact fun hk => hki (h.oneFilling k i hk (h.fillingSlot_eq_some_iff.1 hi))
  · exact h.not_filling_of_none ‹_› k

/-- A frame that is admitted takes a FREE slot, while no other is FILLING and the ready queue has room (R119). -/
theorem SlotTable.answer_admitted {t : SlotTable} {c : Content} {i : Nat} (ha : t.answer c = .admitted i) :
    t.fillingSlot = none ∧ t.readyQueue.length ≤ 2 ∧ i < t.slots.length ∧ (t.slot i).state = .free := by
  unfold SlotTable.answer at ha
  split at ha
  · rename_i hroom
    simp only [SlotTable.hasRoom, Bool.and_eq_true, Option.isNone_iff_eq_none, decide_eq_true_eq] at hroom
    obtain ⟨⟨hnone, -⟩, hcount⟩ := hroom
    split at ha
    · split at ha
      · rename_i hfree
        cases ha
        exact ⟨hnone, Nat.le_of_lt_succ hcount, SlotTable.slot_of_findIdx hfree⟩
      · cases ha
    · cases ha
  · cases ha

theorem SlotTable.request_fills {t : SlotTable} (h : t.Sound) (c : Content) : t.Fills (t.request c) := by
  unfold SlotTable.request
  split
  · rename_i i ha
    obtain ⟨hnone, hroom, hi, hfree⟩ := SlotTable.answer_admitted ha
    exact SlotTable.fills_of_modify h rfl rfl rfl hi (Or.inl hfree)
      (Or.inr ⟨rfl, nofun, hroom, fun k hk => absurd hk (h.not_filling_of_none hnone k)⟩)
  · exact h.fills_counts _ _ _
  · exact h.fills_counts _ _ _

/-! ## Completion (R121, R122) -/

/-- A FILLING slot whose content is newer than every other becomes READY, last in the queue (R122). -/
theorem SlotTable.Sound.fills_ready {t u : SlotTable} (h : t.Sound) {i : Nat} {c : Content}
    (hi : (t.slot i).state = .filling) (hc : t.contentOf i = some c) (hnewer : t.newerThanHeld c = true)
    (hslots : u.slots = t.slots.modify i (fun r => { r with state := .ready })) (hqueue : u.readyQueue = t.readyQueue ++ [i])
    (hshown : u.shown = t.shown) : t.Fills u := by
  have hslot := SlotTable.slot_of_modify hslots (h.lt_of_filling hi)
  have hnotHeld := h.not_held (Or.inr hi)
  obtain ⟨hnotReady, hnotShown⟩ := not_or.1 hnotHeld
  have hheld (k : Nat) (hk : t.Held k) : u.slot k = t.slot k := by
    rw [hslot, if_neg]
    rintro rfl
    exact hnotHeld hk
  have hnone (k : Nat) : (u.slot k).state ≠ .filling := by
    rw [hslot]
    split
    · nofun
    · rename_i hki
      exact fun hk => hki (h.oneFilling k i hk hi)
  have hroom := h.room i hi
  refine ⟨⟨by simp [hslots, h.length], ?_, fun k => ?_, fun k => ?_, fun k => ?_, fun j _ hj => absurd hj (hnone j), ?_,
      fun k hk => absurd hk (hnone k)⟩,
    fun hord => hord.append hnewer ?_ ?_, hshown, ⟨[i], hqueue.symm⟩, hheld⟩
  · rw [hqueue, List.nodup_append]
    exact ⟨h.nodup, List.nodup_singleton i, fun a ha b hb => by rintro rfl; exact hnotReady (List.mem_singleton.1 hb ▸ ha)⟩
  · rw [hqueue, hslot, List.mem_append, List.mem_singleton]
    split
    · simp_all
    · simp_all [h.ready k]
  · rw [hshown, hslot]
    split
    · simp_all
    · exact h.shown k
  · rw [hslot]
    split
    · rename_i hki
      simp [h.content, hi]
    · exact h.content k
  · simp only [hqueue, List.length_append, List.length_singleton]
    omega
  · have hci : u.contentOf i = some c := by
      simp only [SlotTable.contentOf, hslot, if_true]
      exact hc
    rw [SlotTable.readyList, hqueue, List.filterMap_append, SlotTable.contents_congr fun k hk => hheld k (Or.inl hk)]
    simp [SlotTable.readyList, hci]
  · exact SlotTable.shownContent_congr hshown fun k hk => hheld k (Or.inr hk)

theorem SlotTable.complete_fills {t : SlotTable} (h : t.Sound) {i : Nat} (hi : (t.slot i).state = .filling) :
    t.Fills (t.complete i) := by
  unfold SlotTable.complete
  split
  · split
    · exact h.fills_ready hi ‹_› ‹_› rfl rfl rfl
    · exact h.fills_free hi rfl rfl rfl
  · exact h.fills_free hi rfl rfl rfl

theorem SlotTable.completeIfDone_fills {t : SlotTable} (h : t.Sound) (wh : Nat) : t.Fills (t.completeIfDone wh) := by
  unfold SlotTable.completeIfDone
  split
  · split
    · exact SlotTable.complete_fills h (h.fillingSlot_eq_some_iff.1 ‹_›)
    · exact SlotTable.Fills.refl h
  · exact SlotTable.Fills.refl h

/-- Line `i` of a frame has been written, and its completion is still to be looked at (R121). -/
def SlotTable.countLine (t : SlotTable) (i : Nat) : SlotTable :=
  { t with slots := t.slots.modify i (fun r => { r with linesWritten := r.linesWritten + 1 }) }

/-- The FRAME_CLOSE of slot `i` has been accepted, and its completion is still to be looked at (R121). -/
def SlotTable.setClosing (t : SlotTable) (i : Nat) : SlotTable :=
  { t with slots := t.slots.modify i (fun r => { r with closing := true }) }

theorem SlotTable.lineWritten_eq (t : SlotTable) (wh slot line : Nat) : t.lineWritten wh slot line =
    if t.fillingSlot = some slot ∧ (t.slot slot).linesWritten = line then (t.countLine slot).completeIfDone wh else t := rfl

theorem SlotTable.closeAccepted_eq {t : SlotTable} {i : Nat} (hi : t.fillingSlot = some i) (wh : Nat) :
    t.closeAccepted wh = (t.setClosing i).completeIfDone wh := by
  rw [SlotTable.closeAccepted, hi]
  rfl

theorem SlotTable.closeAccepted_none {t : SlotTable} (h : t.fillingSlot = none) (wh : Nat) : t.closeAccepted wh = t := by
  rw [SlotTable.closeAccepted, h]

theorem SlotTable.countLine_slot {t : SlotTable} {i : Nat} (hi : i < t.slots.length) (k : Nat) :
    (t.countLine i).slot k = if k = i then { t.slot i with linesWritten := (t.slot i).linesWritten + 1 } else t.slot k :=
  SlotTable.slot_of_modify (u := t.countLine i) rfl hi k

theorem SlotTable.setClosing_slot {t : SlotTable} {i : Nat} (hi : i < t.slots.length) (k : Nat) :
    (t.setClosing i).slot k = if k = i then { t.slot i with closing := true } else t.slot k :=
  SlotTable.slot_of_modify (u := t.setClosing i) rfl hi k

theorem SlotTable.countLine_fills {t : SlotTable} (h : t.Sound) {i : Nat} (hi : (t.slot i).state = .filling) :
    t.Fills (t.countLine i) := h.fills_filling (u := t.countLine i) hi rfl rfl rfl rfl rfl

theorem SlotTable.setClosing_fills {t : SlotTable} (h : t.Sound) {i : Nat} (hi : (t.slot i).state = .filling) :
    t.Fills (t.setClosing i) := h.fills_filling (u := t.setClosing i) hi rfl rfl rfl rfl rfl

theorem SlotTable.lineWritten_fills {t : SlotTable} (h : t.Sound) (wh slot line : Nat) :
    t.Fills (t.lineWritten wh slot line) := by
  rw [SlotTable.lineWritten_eq]
  split
  · rename_i hnext
    have hcounted := SlotTable.countLine_fills h (h.fillingSlot_eq_some_iff.1 hnext.1)
    exact hcounted.trans (SlotTable.completeIfDone_fills hcounted.sound wh)
  · exact SlotTable.Fills.refl h

theorem SlotTable.closeAccepted_fills {t : SlotTable} (h : t.Sound) (wh : Nat) : t.Fills (t.closeAccepted wh) := by
  cases hi : t.fillingSlot with
  | some i =>
    rw [SlotTable.closeAccepted_eq hi]
    have hclosed := SlotTable.setClosing_fills h (h.fillingSlot_eq_some_iff.1 hi)
    exact hclosed.trans (SlotTable.completeIfDone_fills hclosed.sound wh)
  | none =>
    rw [SlotTable.closeAccepted_none hi]
    exact SlotTable.Fills.refl h

end Sys2Proof.Machine
end

section
/-! The operations that neither make nor unmake a MEMBER: frame starts, edges, the vote and the requests (R99 to R106, R113 to
R115, R157). -/

namespace Sys2Proof.Machine

open Sys2Proof

/-! ## Frame starts and edges (R25 to R31, R99 to R102) -/

@[simp] theorem Membership.startJoining_isMember (m : Membership) :
    m.startJoining.state = .member ↔ m.state = .member := by
  unfold Membership.startJoining
  split
  · rename_i hl; simp [hl]
  · rfl

@[simp] theorem State.trackOrder_isMember (s : State) :
    s.trackOrder.member.state = .member ↔ s.member.state = .member := Membership.startJoining_isMember _

@[simp] theorem State.raise_member_state (s : State) (cause : WithdrawalCause) :
    (s.raise cause).member.state = s.member.state := by rw [State.raise_member]

@[simp] theorem State.frameStart_isMember (s : State) (cause : FrameCause) (ended : TimebaseState) :
    (s.frameStart cause ended).member.state = .member ↔ s.member.state = .member := by
  simp only [State.frameStart, State.latchFrame_frame, State.memberFrameStart_member, State.markFrameStart_member]
  split
  · exact Membership.startJoining_isMember _
  · rfl

@[simp] theorem State.naturalFrameStart_isMember (s : State) :
    s.naturalFrameStart.member.state = .member ↔ s.member.state = .member := by
  unfold State.naturalFrameStart
  split
  · rfl
  · exact s.frameStart_isMember _ _

@[simp] theorem State.frameStartWhen_isMember (s : State) (met : Bool) :
    (s.frameStartWhen met).member.state = .member ↔ s.member.state = .member := by
  unfold State.frameStartWhen
  split
  · exact s.naturalFrameStart_isMember
  · rfl

@[simp] theorem State.reload_isMember (s : State) (track : Bool) :
    (s.reload track).member.state = .member ↔ s.member.state = .member := by
  obtain ⟨x, hx, -, -, hmember, -⟩ := s.reload_eq track
  rw [hx, State.frameStart_isMember, hmember]
  cases track with
  | true => exact Membership.startJoining_isMember _
  | false => rfl

@[simp] theorem State.seekEdge_isMember (s : State) (ln px : Nat) :
    (s.seekEdge ln px).member.state = .member ↔ s.member.state = .member := by
  unfold State.seekEdge
  split
  · exact State.trackOrder_isMember _
  · exact State.reload_isMember _ _

@[simp] theorem State.trackingEdge_isMember (s : State) (ln px : Nat) :
    (s.trackingEdge ln px).member.state = .member ↔ s.member.state = .member := by
  unfold State.trackingEdge State.strayEdge
  repeat' split
  · rfl
  · exact State.reload_isMember _ _
  · rfl
  · exact State.reload_isMember _ _
  · rfl

@[simp] theorem State.edgeHere_isMember (s : State) :
    s.edgeHere.member.state = .member ↔ s.member.state = .member := by
  unfold State.edgeHere
  repeat' split
  · exact State.trackOrder_isMember _
  · exact s.seekEdge_isMember _ _
  · exact s.trackingEdge_isMember _ _

@[simp] theorem State.edgeBeforeWrap_isMember (s : State) :
    s.edgeBeforeWrap.member.state = .member ↔ s.member.state = .member := by
  unfold State.edgeBeforeWrap
  dsimp only
  split
  · simp
  · rfl

@[simp] theorem State.takeEdge_isMember (s : State) (time : EdgeTime) :
    (s.takeEdge time).member.state = .member ↔ s.member.state = .member := by
  cases time with
  | pixel ln px => exact State.edgeHere_isMember _
  | wrap => exact s.edgeBeforeWrap_isMember

/-! ## The vote and the requests (R103 to R106, R113 to R115) -/

@[simp] theorem State.membershipRollCall_member_state (s : State) (results : Results) :
    (s.membershipRollCall results).member.state = s.member.state := by
  have claimLost : s.claimLostCheck.member.state = s.member.state := by
    unfold State.claimLostCheck; split <;> simp
  have unheard : (s.claimLostCheck.unheardCheck results).member.state = s.member.state := by
    unfold State.unheardCheck; dsimp only; split <;> simp [Membership.countUnheard, claimLost]
  unfold State.membershipRollCall
  split
  · unfold State.memberRollCall State.outOfStepCheck
    split <;> simp [unheard]
  · split <;> rfl

@[simp] theorem State.rollCallClose_member_state (s : State) (cells : List Samples) :
    (s.rollCallClose cells).member.state = s.member.state := by
  unfold State.rollCallClose State.rollCallWith
  dsimp only
  repeat' split
  all_goals simp

@[simp] theorem State.verdictSample_member_state (s : State) (samples : Samples) :
    (s.verdictSample samples).member.state = s.member.state := by
  unfold State.verdictSample State.receptionCheck Membership.raise
  dsimp only
  repeat' split
  all_goals rfl

/-- A LEAVE parks no MEMBER at once (R113, R114). -/
@[simp] theorem State.actOnLeave_isMember (s : State) :
    s.actOnLeave.member.state = .member ↔ s.member.state = .member := by
  have parks : s.member.parkFrom.state = .parked := by unfold Membership.parkFrom; split <;> rfl
  have parked (hs : s.member.state ≠ .member) : s.parkNow.member.state = .member ↔ s.member.state = .member := by
    simp [State.parkNow, parks, hs]
  unfold State.actOnLeave
  split
  · unfold State.leaveMember
    repeat' split
    all_goals simp
  · exact parked (by simp [*])
  · exact parked (by simp [*])
  · exact parked (by simp [*])
  · rfl
  · rfl
  · rfl

@[simp] theorem State.actOnRejoin_member_state (s : State) : s.actOnRejoin.member.state = s.member.state := by
  unfold State.actOnRejoin
  split <;> rfl

theorem State.whenNext_isMember (s : State) (next : Bool) {t : State}
    (ht : t.member.state = .member ↔ s.member.state = .member) :
    (s.whenNext next t).member.state = .member ↔ s.member.state = .member := by
  cases next with
  | true => exact ht
  | false => rfl

end Sys2Proof.Machine
end

section
/-! The Input Port and the Slot Table speak of the same frame (R119, R121, R135, R138): what the words of the frame input port and
the completed bursts keep. -/

namespace Sys2Proof.Machine

open Sys2Proof

/-! ## The frame under reception (R119, R121) -/

/-- No line is being received, and a FILLING slot is one whose FRAME_CLOSE has been accepted. -/
structure InputPort.Quiet (p : InputPort) (t : SlotTable) : Prop where
  count : p.pixelCount = none
  closed : ∀ k, (t.slot k).state = .filling → (t.slot k).closing = true

/-- The agreement of State.InputLegal, with the FILLING slot named by its state. -/
structure InputPort.Follows (p : InputPort) (t : SlotTable) : Prop where
  receiving : p.state = .filling → (t.slot p.slot).state = .filling ∧ (t.slot p.slot).closing = false
  quiet : p.state ≠ .filling → p.Quiet t

theorem SlotTable.Sound.follows_iff {t : SlotTable} (h : t.Sound) (p : InputPort) : p.Follows t ↔
    (p.state = .filling → t.fillingSlot = some p.slot ∧ (t.slot p.slot).closing = false) ∧
    (p.state ≠ .filling → p.pixelCount = none ∧ ∀ k, t.fillingSlot = some k → (t.slot k).closing = true) := by
  simp only [h.fillingSlot_eq_some_iff]
  exact ⟨fun ⟨hreceiving, hquiet⟩ => ⟨hreceiving, fun hp => ⟨(hquiet hp).count, (hquiet hp).closed⟩⟩,
    fun ⟨hreceiving, hquiet⟩ => ⟨hreceiving, fun hp => ⟨(hquiet hp).1, (hquiet hp).2⟩⟩⟩

/-- The agreement speaks of the input state, the slot and the pixel count alone. -/
theorem InputPort.Follows.congr {p q : InputPort} {t : SlotTable} (h : p.Follows t) (hstate : q.state = p.state)
    (hslot : q.slot = p.slot) (hcount : q.pixelCount = p.pixelCount) : q.Follows t where
  receiving hq := hslot ▸ h.receiving (hstate ▸ hq)
  quiet hq := ⟨hcount.trans (h.quiet (hstate ▸ hq)).count, (h.quiet (hstate ▸ hq)).closed⟩

/-- In FILLING the pixel count may change (R137). -/
theorem InputPort.Follows.of_filling {p q : InputPort} {t : SlotTable} (h : p.Follows t) (hp : p.state = .filling)
    (hq : q.state = .filling) (hslot : q.slot = p.slot) : q.Follows t :=
  ⟨fun _ => hslot ▸ h.receiving hp, fun hne => absurd hq hne⟩

/-! ## What a table keeps of the frame under reception -/

/-- A FILLING slot has been FILLING, with the same closing flag, and one that is not closing stays FILLING. -/
structure SlotTable.KeepsReception (t u : SlotTable) : Prop where
  was : ∀ k, (u.slot k).state = .filling → (t.slot k).state = .filling ∧ (u.slot k).closing = (t.slot k).closing
  stays : ∀ k, (t.slot k).state = .filling → (t.slot k).closing = false → (u.slot k).state = .filling

theorem SlotTable.KeepsReception.trans {t u v : SlotTable} (h : t.KeepsReception u) (h' : u.KeepsReception v) :
    t.KeepsReception v where
  was k hk := ⟨(h.was k (h'.was k hk).1).1, (h'.was k hk).2.trans (h.was k (h'.was k hk).1).2⟩
  stays k hk hopen := h'.stays k (h.stays k hk hopen) ((h.was k (h.stays k hk hopen)).2.trans hopen)

theorem InputPort.Follows.of_keeps {p : InputPort} {t u : SlotTable} (h : p.Follows t) (hkeeps : t.KeepsReception u) :
    p.Follows u where
  receiving hp := by
    obtain ⟨hfilling, hopen⟩ := h.receiving hp
    have hstays := hkeeps.stays _ hfilling hopen
    exact ⟨hstays, (hkeeps.was _ hstays).2.trans hopen⟩
  quiet hp := ⟨(h.quiet hp).count, fun k hk => (hkeeps.was k hk).2.trans ((h.quiet hp).closed k (hkeeps.was k hk).1)⟩

/-- A completion ends the FILLING slot, READY or FREE, and touches no other record (R122). -/
theorem SlotTable.complete_slot {t : SlotTable} {i : Nat} (hi : i < t.slots.length) : ∃ r : SlotRecord,
    r.state ≠ .filling ∧ ∀ k, (t.complete i).slot k = if k = i then r else t.slot k := by
  have freed (skipped : Count16) (k : Nat) : ({ t.free i with skipped := skipped } : SlotTable).slot k =
      if k = i then State.freeSlot else t.slot k := t.free_slot i k
  unfold SlotTable.complete
  split
  · split
    · exact ⟨{ t.slot i with state := .ready }, nofun,
        SlotTable.slot_of_modify (f := fun r => { r with state := .ready }) rfl hi⟩
    · exact ⟨State.freeSlot, nofun, freed _⟩
  · exact ⟨State.freeSlot, nofun, freed _⟩

theorem SlotTable.completeIfDone_keepsReception {t : SlotTable} (h : t.Sound) (wh : Nat) :
    t.KeepsReception (t.completeIfDone wh) := by
  unfold SlotTable.completeIfDone
  split
  · rename_i i hi
    have hfilling := h.fillingSlot_eq_some_iff.1 hi
    split
    · rename_i hdone
      obtain ⟨r, hr, hslot⟩ := SlotTable.complete_slot (h.lt_of_filling hfilling)
      refine ⟨fun k hk => ?_, fun k hk hopen => ?_⟩
      · rw [hslot] at hk ⊢
        split at hk
        · exact absurd hk hr
        · rename_i hki
          rw [if_neg hki]
          exact ⟨hk, rfl⟩
      · obtain rfl := h.oneFilling k i hk hfilling
        rw [hdone.1] at hopen
        cases hopen
    · exact ⟨fun _ hk => ⟨hk, rfl⟩, fun _ hk _ => hk⟩
  · exact ⟨fun _ hk => ⟨hk, rfl⟩, fun _ hk _ => hk⟩

theorem SlotTable.countLine_keepsReception {t : SlotTable} (h : t.Sound) {i : Nat} (hi : (t.slot i).state = .filling) :
    t.KeepsReception (t.countLine i) := by
  have hslot (k : Nat) : ((t.countLine i).slot k).state = (t.slot k).state ∧
      ((t.countLine i).slot k).closing = (t.slot k).closing := by
    rw [SlotTable.countLine_slot (h.lt_of_filling hi)]
    split
    · rename_i hk; rw [hk]; exact ⟨rfl, rfl⟩
    · exact ⟨rfl, rfl⟩
  exact ⟨fun k hk => ⟨(hslot k).1 ▸ hk, (hslot k).2⟩, fun k hk _ => (hslot k).1.trans hk⟩

theorem SlotTable.lineWritten_keepsReception {t : SlotTable} (h : t.Sound) (wh slot line : Nat) :
    t.KeepsReception (t.lineWritten wh slot line) := by
  rw [SlotTable.lineWritten_eq]
  split
  · rename_i hnext
    have hfilling := h.fillingSlot_eq_some_iff.1 hnext.1
    exact (SlotTable.countLine_keepsReception h hfilling).trans
      (SlotTable.completeIfDone_keepsReception (SlotTable.countLine_fills h hfilling).sound wh)
  · exact ⟨fun _ hk => ⟨hk, rfl⟩, fun _ hk _ => hk⟩

/-- After an accepted FRAME_CLOSE a slot that is still FILLING is closing (R121, R138). -/
theorem SlotTable.closeAccepted_closing {t : SlotTable} (h : t.Sound) (wh : Nat) {k : Nat}
    (hk : ((t.closeAccepted wh).slot k).state = .filling) : ((t.closeAccepted wh).slot k).closing = true := by
  cases hi : t.fillingSlot with
  | some i =>
    have hfilling := h.fillingSlot_eq_some_iff.1 hi
    have hsound := (SlotTable.setClosing_fills h hfilling).sound
    have hslot := SlotTable.setClosing_slot (h.lt_of_filling hfilling) i
    rw [if_pos rfl] at hslot
    rw [SlotTable.closeAccepted_eq hi] at hk ⊢
    obtain ⟨hwas, hclosing⟩ := (SlotTable.completeIfDone_keepsReception hsound wh).was k hk
    rw [hclosing, hsound.oneFilling k i hwas (by rw [hslot]; exact hfilling), hslot]
  | none =>
    rw [SlotTable.closeAccepted_none hi] at hk
    exact absurd hk (h.not_filling_of_none hi k)

end Sys2Proof.Machine
end

section
/-! What a running part changes between swap lines: no command but SWAP_LINE and RESET makes or unmakes a MEMBER, moves SHOWN, or
takes a slot out of the ready queue (R107, R111, R126, R130, R157). -/

namespace Sys2Proof.Machine

open Sys2Proof

/-! ## What a command between swap lines can leave -/

/-- MEMBER is kept, the Slot Table at most fills, and the Input Port stays with it. -/
structure State.Between (s t : State) : Prop where
  member : t.member.state = .member ↔ s.member.state = .member
  table : s.table.Fills t.table
  input : s.input.Follows s.table → t.input.Follows t.table

section
variable {s : State}

theorem State.Between.of_table {t : State} (h : s.table.Sound)
    (hmember : t.member.state = .member ↔ s.member.state = .member) (htable : t.table = s.table)
    (hinput : s.input.Follows s.table → t.input.Follows s.table) : s.Between t :=
  ⟨hmember, htable.symm ▸ SlotTable.Fills.refl h, htable.symm ▸ hinput⟩

theorem State.Between.of_kept {t : State} (h : s.table.Sound)
    (hmember : t.member.state = .member ↔ s.member.state = .member) (htable : t.table = s.table)
    (hinput : t.input = s.input) : s.Between t := .of_table h hmember htable (hinput.symm ▸ id)

/-! ## Words that change no record (R136, R137, R140, R141) -/

theorem State.strayWord_between (h : s.table.Sound) : s.Between s.strayWord :=
  .of_table h Iff.rfl rfl fun hf => hf.congr rfl rfl rfl

theorem State.ignoreWord_between (h : s.table.Sound) : s.Between s.ignoreWord :=
  .of_table h Iff.rfl rfl fun hf => hf.congr rfl rfl rfl

theorem State.honourFlags_between (h : s.table.Sound) (payload : BitVec 16) : s.Between (s.honourFlags payload) :=
  .of_table h Iff.rfl rfl fun hf => hf.congr rfl rfl rfl

/-! ## Discards and defects (R123, R139) -/

/-- The order to discard reaches the table also where no slot is FILLING, and does nothing there (R123). -/
@[simp] theorem State.discardFilling_table (s : State) : s.discardFilling.table = s.table.discard := by
  unfold State.discardFilling SlotTable.discard
  cases s.table.fillingSlot <;> rfl

theorem State.defect_between (h : s.table.Sound) : s.Between s.defect where
  member := by simp
  table := s.discardFilling_table.symm ▸ SlotTable.discard_fills h
  input _ := ⟨nofun, fun _ => ⟨rfl, fun k hk =>
    absurd (s.discardFilling_table ▸ hk) (SlotTable.discard_not_filling h k)⟩⟩

/-! ## FRAME_OPEN (R135) -/

theorem State.abandonFrame_fills (h : s.table.Sound) : s.table.Fills s.abandonFrame.table := by
  unfold State.abandonFrame
  split
  · exact s.discardFilling_table.symm ▸ SlotTable.discard_fills h
  · exact SlotTable.Fills.refl h

/-- Whatever the input state, no frame is under reception after step 1 (R135). -/
theorem State.abandonFrame_quiet (h : s.table.Sound) (hf : s.input.Follows s.table) :
    s.abandonFrame.input.Quiet s.abandonFrame.table := by
  unfold State.abandonFrame
  split
  · exact ⟨rfl, fun k hk => absurd (s.discardFilling_table ▸ hk) (SlotTable.discard_not_filling h k)⟩
  · exact hf.quiet ‹_›

/-- Steps 3 to 5: the admitted slot is the one received, and a refusal changes no record (R119, R135). -/
theorem State.requestAdmission_follows (hq : s.input.Quiet s.table) (content : Content) :
    (s.requestAdmission content).input.Follows (s.requestAdmission content).table := by
  have draining : s.input.startDraining.Quiet s.table := ⟨hq.count, hq.closed⟩
  unfold State.requestAdmission SlotTable.request
  cases ha : s.table.answer content with
  | admitted i =>
    obtain ⟨-, -, hi, -⟩ := SlotTable.answer_admitted ha
    have hslot := SlotTable.slot_of_modify (u := s.table.request content) (f := fun _ => fillingRecord content)
      (by simp only [SlotTable.request, ha]) hi i
    simp only [SlotTable.request, ha, if_true] at hslot
    refine ⟨fun _ => ?_, fun hne => absurd rfl hne⟩
    dsimp only [InputPort.startFilling]
    rw [hslot]
    exact ⟨rfl, rfl⟩
  | noRoom => exact ⟨nofun, fun _ => ⟨draining.count, draining.closed⟩⟩
  | outOfOrder => exact ⟨nofun, fun _ => ⟨draining.count, draining.closed⟩⟩

theorem State.frameOpen_between (h : s.table.Sound) (content : Content) : s.Between (s.frameOpen content) where
  member := by simp
  table := (State.abandonFrame_fills h).trans (SlotTable.request_fills (State.abandonFrame_fills h).sound content)
  input hf := by
    unfold State.frameOpen
    refine State.requestAdmission_follows ?_ content
    exact State.abandonFrame_quiet h hf

/-! ## The other words, by input state (R136 to R141) -/

theorem State.frameFlags_between (h : s.table.Sound) (payload : BitVec 16) : s.Between (s.frameFlags payload) := by
  unfold State.frameFlags
  repeat' split
  · exact State.strayWord_between h
  · exact State.honourFlags_between h payload
  · exact State.defect_between h
  · exact State.honourFlags_between h payload
  · exact State.ignoreWord_between h

theorem State.lineOpen_between (h : s.table.Sound) (index : BitVec 16) : s.Between (s.lineOpen index) := by
  unfold State.lineOpen
  split
  · exact State.strayWord_between h
  · rename_i hfilling
    unfold State.openLine
    repeat' split
    · exact .of_table h Iff.rfl rfl fun hf => hf.of_filling hfilling hfilling rfl
    · exact State.defect_between h
    · exact State.defect_between h
  · exact State.ignoreWord_between h

theorem State.pixelWord_between (h : s.table.Sound) (colour : Colour) : s.Between (s.pixelWord colour) := by
  unfold State.pixelWord
  split
  · exact State.strayWord_between h
  · rename_i hfilling
    unfold State.storePixel
    dsimp only
    repeat' split
    · exact .of_table h Iff.rfl rfl fun hf => hf.of_filling hfilling hfilling rfl
    · exact .of_table h Iff.rfl rfl fun hf => hf.of_filling hfilling hfilling rfl
    · exact State.defect_between h
  · exact State.ignoreWord_between h

theorem State.frameClose_between (h : s.table.Sound) (count : BitVec 16) : s.Between (s.frameClose count) := by
  unfold State.frameClose
  split
  · exact State.strayWord_between h
  · unfold State.closeFrame
    split
    · rename_i hcomplete
      exact ⟨Iff.rfl, SlotTable.closeAccepted_fills h _, fun _ =>
        ⟨nofun, fun _ => ⟨hcomplete.1, fun k hk => SlotTable.closeAccepted_closing h _ hk⟩⟩⟩
    · exact State.defect_between h
  · rename_i hdraining
    refine .of_table h Iff.rfl rfl fun hf => ⟨nofun, fun _ => ?_⟩
    obtain ⟨hcount, hclosed⟩ := hf.quiet (by simp [hdraining])
    exact ⟨hcount, hclosed⟩

theorem State.controlWord_between (h : s.table.Sound) (word : BitVec 24) : s.Between (s.controlWord word) := by
  unfold State.controlWord
  split
  · exact State.frameOpen_between h _
  · exact State.frameFlags_between h _
  · exact State.lineOpen_between h _
  · exact State.frameClose_between h _
  · unfold State.damagedWord
    split
    · exact State.strayWord_between h
    · exact State.defect_between h
    · exact State.ignoreWord_between h

/-! ## The Memory Port (R121, R143, R150) -/

/-- A grant takes from the line buffers alone (R143). -/
theorem State.grant_input (s : State) : s.grant.input = { s.input with buffers := s.grant.input.buffers } := by
  unfold State.grant
  repeat' split
  · rfl
  · rfl
  · rfl
  · rfl
  · unfold State.grantWriter
    dsimp only
    split <;> rfl

theorem State.Between.grant {t : State} (h : s.Between t) : s.Between t.grant where
  member := by simpa using h.member
  table := by simpa using h.table
  input hf := by
    have htable : t.grant.table = t.table := by simp
    rw [State.grant_input, htable]
    exact (h.input hf).congr rfl rfl rfl

/-- A claim that arrives may be granted (R149, R150). -/
theorem State.claim_between (h : s.table.Sound) (next : Bool) {u : State} (hmember : u.member = s.member)
    (htable : u.table = s.table) (hinput : u.input = s.input) : s.Between (s.whenNext next u.grant) := by
  cases next with
  | true => exact (State.Between.of_kept h (by rw [hmember]) htable hinput).grant
  | false => exact .of_kept h Iff.rfl rfl rfl

theorem State.deliver_between (h : s.table.Sound) (b : Burst) : s.Between (s.deliver b) := by
  cases b with
  | refresh | reader => exact .of_kept h Iff.rfl rfl rfl
  | writer slot line burst data drop =>
    refine ⟨by simp, ?_, fun hf => ?_⟩
    · unfold State.deliver
      dsimp only
      split
      · exact SlotTable.lineWritten_fills h _ _ _
      · exact SlotTable.Fills.refl h
    · unfold State.deliver
      dsimp only
      split
      · exact hf.of_keeps (SlotTable.lineWritten_keepsReception h _ _ _)
      · exact hf

end

/-! ## Every command of a running part -/

theorem exec_between {c : Instr} {s t : State} (h : s.table.Sound) (hr : s.running = true) (hswap : c ≠ .swapLine)
    (hreset : ∀ kind, c ≠ .reset kind) (hx : exec c s = .next t) : s.Between t := by
  have kept {u : State} (hx : (.next (s.whenRunning u) : Host.Outcome State Fault Refusal) = .next t)
      (hu : (u.member.state = .member ↔ s.member.state = .member) ∧ u.table = s.table ∧ u.input = s.input) :
      s.Between t := by
    obtain ⟨hmember, htable, hinput⟩ := hu
    rw [next_of_running hr hx]; exact .of_kept h hmember htable hinput
  have taken {u : State} (hx : (.next (s.whenRunning u) : Host.Outcome State Fault Refusal) = .next t)
      (hu : s.Between u) : s.Between t := by
    rw [next_of_running hr hx]; exact hu
  cases c with
  | reset kind => exact absurd rfl (hreset kind)
  | swapLine => exact absurd rfl hswap
  | resetRelease straps =>
    obtain rfl := Host.Outcome.next.inj hx
    rw [release_of_running hr]; exact .of_kept h Iff.rfl rfl rfl
  | imageReadDone bytes =>
    obtain rfl := Host.Outcome.next.inj hx
    rw [imageRead_of_running hr]; exact .of_kept h Iff.rfl rfl rfl
  | frameStart => exact kept hx (by simp)
  | markLost => exact kept hx (by simp)
  | seekSilence => exact kept hx (by simp)
  | restEnd => exact kept hx (by simp)
  | inputTimeout => exact kept hx (by simp)
  | lineStart line => exact kept hx (by simp)
  | markEdge time => exact kept hx (by simp)
  | slotBegin slot => exact kept hx (by simp)
  | announceSent => exact kept hx (by simp)
  | slotEnd slot => exact kept hx (by simp)
  | recordExpiry slot => exact kept hx (by split <;> simp)
  | rollCallCell => exact kept hx (by simp)
  | rollCallClose cells => exact kept hx (by simp)
  | verdictLatch => exact kept hx (by simp)
  | verdictSample samples => exact kept hx (by simp)
  | catchZoneEntry => exact kept hx (by simp)
  | imageLineStart line => exact kept hx (by simp)
  | imageLineEnd line => exact kept hx (by simp)
  | underrun line column => exact kept hx (by simp)
  | readerCompletion d => exact kept hx (by simp)
  | frameOpen content => exact taken hx (State.frameOpen_between h content)
  | frameFlags payload => exact taken hx (State.frameFlags_between h payload)
  | lineOpen index => exact taken hx (State.lineOpen_between h index)
  | pixelWord colour => exact taken hx (State.pixelWord_between h colour)
  | frameClose count => exact taken hx (State.frameClose_between h count)
  | damagedControlWord word => exact taken hx (State.controlWord_between h word)
  | frameOpenArrival => exact kept hx ⟨State.whenNext_isMember _ _ Iff.rfl, by simp, by simp⟩
  | leave => exact kept hx ⟨State.whenNext_isMember _ _ (State.actOnLeave_isMember _), by simp, by simp⟩
  | rejoin => exact kept hx ⟨State.whenNext_isMember _ _ (by simp), by simp, by simp⟩
  | refreshClaim => exact taken hx (State.claim_between h _ rfl rfl rfl)
  | writerClaim slot line => exact taken hx (State.claim_between h _ rfl rfl rfl)
  | readerClaim item => exact taken hx (State.claim_between h _ rfl rfl rfl)
  | burstCompletion =>
    obtain rfl | ⟨b, rfl⟩ := burstCompletion_next hr hx
    · exact .of_kept h Iff.rfl rfl rfl
    · obtain ⟨hmember, htable, hinput⟩ := State.deliver_between h b
      exact State.Between.grant ⟨hmember, htable, hinput⟩
  | memoryDiscard slot => exact kept hx (by simp)
  | readerWithdrawal line => exact kept hx (by simp)
  | recordSent =>
    obtain rfl := Host.Outcome.next.inj hx
    exact .of_kept h Iff.rfl rfl rfl
  | markRisingEdge => exact kept hx ⟨Iff.rfl, rfl, rfl⟩
  | talkCellSettled cell samples => exact kept hx (by simp)

/-- Settles O60: the commands between swap lines leave MEMBER, SHOWN and the READY slots as they are. -/
theorem onlyTheSwapLineChangesShown : Obligations.OnlyTheSwapLineChangesShown := by
  intro c s t hr hcons _ hswap hreset hx
  obtain ⟨hmember, hfills, -⟩ := exec_between ((s.table.consistent_iff).1 hcons) hr hswap hreset hx
  exact ⟨hmember, hfills.shown, SlotTable.shownContent_congr hfills.shown fun k hk => hfills.held k (Or.inr hk), hfills.queue,
    fun k hk => hfills.held k (Or.inl hk)⟩

end Sys2Proof.Machine
end

section
/-! The orders of the swap line keep the Slot Table in agreement and in order: they move READY and SHOWN slots alone, and the
ready queue loses slots without a change of order (R111, R116 to R118, R124 to R127). -/

namespace Sys2Proof.Machine

open Sys2Proof

/-! ## What an order of the swap line can do (R124, R126, R127) -/

/-- An order of the swap line: of the READY and SHOWN slots one may be SHOWN after it, those that stay in the ready queue keep
their records and their order, and the others are FREE; what stays READY is newer than what is SHOWN. -/
structure SlotTable.Reorders (t u : SlotTable) : Prop where
  length : u.slots.length = t.slots.length
  queue : u.readyQueue.Sublist t.readyQueue
  shown : ∀ k, u.shown = some k → t.Held k ∧ k ∉ u.readyQueue
  record : ∀ k, u.shown = some k → u.slot k = { t.slot k with state := .shown }
  freed : ∀ k, t.Held k → u.shown ≠ some k → k ∉ u.readyQueue → u.slot k = State.freeSlot
  kept : ∀ k, u.shown ≠ some k → (t.Held k → k ∈ u.readyQueue) → u.slot k = t.slot k
  newer : ∀ c, u.shownContent = some c → ∀ k ∈ u.readyQueue, ∀ r, t.contentOf k = some r → newer r c = true

theorem SlotTable.Ordered.newer_of_shown {t : SlotTable} (h : t.Ordered) (c : Content) (hc : t.shownContent = some c)
    (k : Nat) (hk : k ∈ t.readyQueue) (r : Content) (hr : t.contentOf k = some r) : newer r c = true :=
  h.2 c hc r (List.mem_filterMap.2 ⟨k, hk, hr⟩)

/-- A SHOWN slot is not READY too. -/
theorem SlotTable.Sound.shown_not_ready {t : SlotTable} (h : t.Sound) {k : Nat} (hk : t.shown = some k) :
    k ∉ t.readyQueue := by
  rw [h.ready, (h.shown k).1 hk]
  nofun

namespace SlotTable.Reorders

variable {t u : SlotTable}

/-- Each record after the order is the new SHOWN one, a freed one, or as it was. -/
theorem slot_cases (h : t.Reorders u) (k : Nat) :
    u.shown = some k ∧ t.Held k ∧ k ∉ u.readyQueue ∧ u.slot k = { t.slot k with state := .shown } ∨
    u.shown ≠ some k ∧ k ∉ u.readyQueue ∧ t.Held k ∧ u.slot k = State.freeSlot ∨
    u.shown ≠ some k ∧ (t.Held k → k ∈ u.readyQueue) ∧ u.slot k = t.slot k := by
  by_cases hs : u.shown = some k
  · exact Or.inl ⟨hs, (h.shown k hs).1, (h.shown k hs).2, h.record k hs⟩
  · by_cases hk : t.Held k → k ∈ u.readyQueue
    · exact Or.inr (Or.inr ⟨hs, hk, h.kept k hs hk⟩)
    · obtain ⟨hheld, hgone⟩ := Classical.not_imp.1 hk
      exact Or.inr (Or.inl ⟨hs, hgone, hheld, h.freed k hheld hs hgone⟩)

/-- A slot that is FILLING after the order has been so, with the same record. -/
theorem slot_of_filling (h : t.Reorders u) {k : Nat} (hk : (u.slot k).state = .filling) : u.slot k = t.slot k := by
  rcases h.slot_cases k with ⟨-, -, -, hslot⟩ | ⟨-, -, -, hslot⟩ | ⟨-, -, hslot⟩
  · rw [hslot] at hk; cases hk
  · rw [hslot] at hk; cases hk
  · exact hslot

theorem sound (h : t.Reorders u) (ht : t.Sound) : u.Sound where
  length := h.length.trans ht.length
  nodup := h.queue.nodup ht.nodup
  ready k := by
    rcases h.slot_cases k with ⟨-, -, hgone, hslot⟩ | ⟨-, hgone, -, hslot⟩ | ⟨-, hstays, hslot⟩
    · simp [hgone, hslot]
    · simp [hgone, hslot, State.freeSlot]
    · rw [hslot, ← ht.ready]
      exact ⟨fun hk => h.queue.subset hk, fun hk => hstays (Or.inl hk)⟩
  shown k := by
    rcases h.slot_cases k with ⟨hshown, -, -, hslot⟩ | ⟨hshown, -, -, hslot⟩ | ⟨hshown, hstays, hslot⟩
    · simp [hshown, hslot]
    · simp [hshown, hslot, State.freeSlot]
    · rw [hslot, ← ht.shown]
      exact iff_of_false hshown fun hk => ht.shown_not_ready hk (h.queue.subset (hstays (Or.inr hk)))
  content k := by
    rcases h.slot_cases k with ⟨-, hheld, -, hslot⟩ | ⟨-, -, -, hslot⟩ | ⟨-, -, hslot⟩
    · rw [hslot]
      dsimp only
      rw [ht.content]
      rcases (ht.held_iff k).1 hheld with hstate | hstate <;> simp [hstate]
    · simp [hslot, State.freeSlot]
    · rw [hslot]
      exact ht.content k
  oneFilling j k hj hk := ht.oneFilling j k (h.slot_of_filling hj ▸ hj) (h.slot_of_filling hk ▸ hk)
  cap := h.queue.length_le.trans ht.cap
  room k hk := h.queue.length_le.trans (ht.room k (h.slot_of_filling hk ▸ hk))

theorem ordered (h : t.Reorders u) (ht : t.Ordered) : u.Ordered := by
  have hlist : u.readyList = u.readyQueue.filterMap t.contentOf :=
    SlotTable.contents_congr fun k hk => h.kept k (fun hs => (h.shown k hs).2 hk) fun _ => hk
  refine ⟨?_, fun c hc r hr => ?_⟩
  · rw [hlist]
    exact ht.1.sublist (h.queue.filterMap t.contentOf)
  · rw [hlist, List.mem_filterMap] at hr
    obtain ⟨k, hk, hcontent⟩ := hr
    exact h.newer c hc k hk r hcontent

theorem keepsReception (h : t.Reorders u) (ht : t.Sound) : t.KeepsReception u where
  was k hk := by
    rw [← h.slot_of_filling hk]
    exact ⟨hk, rfl⟩
  stays k hk _ := by
    have hfree : ¬t.Held k := by rw [ht.held_iff, hk]; simp
    rw [h.kept k (fun hs => hfree (h.shown k hs).1) fun hheld => absurd hheld hfree]
    exact hk

theorem refl (ht : t.Sound) (ho : t.Ordered) : t.Reorders t where
  length := rfl
  queue := List.Sublist.refl _
  shown k hk := ⟨Or.inr hk, ht.shown_not_ready hk⟩
  record k hk := by rw [← (ht.shown k).1 hk]
  freed k hheld hs hk := absurd hheld (not_or.2 ⟨hk, hs⟩)
  kept _ _ _ := rfl
  newer := ho.newer_of_shown

end SlotTable.Reorders

/-! ## The three orders -/

theorem SlotTable.releaseShown_reorders {t : SlotTable} (h : t.Sound) : t.Reorders t.releaseShown := by
  obtain ⟨hqueue, -, -, -, hnone, hlength⟩ := t.releaseShown_kept
  refine ⟨hlength, hqueue ▸ List.Sublist.refl _, fun k hk => ?_, fun k hk => ?_, fun k hheld _ hk => ?_,
    fun k _ hk => ?_, fun c hc => ?_⟩
  · rw [hnone] at hk; cases hk
  · rw [hnone] at hk; cases hk
  · rw [t.releaseShown_slot, if_pos (hheld.resolve_left (hqueue ▸ hk))]
  · rw [t.releaseShown_slot, if_neg]
    exact fun hs => h.shown_not_ready hs (hqueue ▸ hk (Or.inr hs))
  · rw [SlotTable.shownContent, hnone] at hc; cases hc

theorem SlotTable.swapTo_reorders {t : SlotTable} (h : t.Sound) (ho : t.Ordered) (c : Content) :
    t.Reorders (t.swapTo c) := by
  cases hfound : t.readySlotOf c with
  | none =>
    have hsame : t.swapTo c = t := by rw [SlotTable.swapTo, hfound]
    rw [hsame]
    exact .refl h ho
  | some i =>
    have hi : i ∈ t.readyQueue := List.mem_of_find?_eq_some hfound
    have hc : t.contentOf i = some c := by simpa using List.find?_some hfound
    obtain ⟨hshown, -, -, hqueue, -, hslot⟩ := t.swapTo_spec i c ((t.consistent_iff).2 h) ho hi hc
    have hcontent : (t.swapTo c).shownContent = some c := by
      rw [SlotTable.shownContent, hshown, Option.bind_some, SlotTable.contentOf, hslot, if_pos rfl]
      exact hc
    have hnewer (k : Nat) (hk : k ∈ (t.swapTo c).readyQueue) (r : Content) (hr : t.contentOf k = some r) :
        newer r c = true := by
      rw [hqueue, List.mem_filter, hr] at hk
      exact hk.2
    have hgone : i ∉ (t.swapTo c).readyQueue := fun hk => by
      have := hnewer i hk c hc
      rw [newer_irrefl] at this; cases this
    have hsub : (t.swapTo c).readyQueue.Sublist t.readyQueue := hqueue ▸ List.filter_sublist
    refine ⟨t.swapTo_length c, hsub, fun k hk => ?_, fun k hk => ?_, fun k hheld hk hstays => ?_, fun k hk hstays => ?_,
      fun d hd k hk r hr => ?_⟩
    · obtain rfl := Option.some.inj (hshown.symm.trans hk)
      exact ⟨Or.inl hi, hgone⟩
    · obtain rfl := Option.some.inj (hshown.symm.trans hk)
      rw [hslot, if_pos rfl]
    · have hki : k ≠ i := by rintro rfl; exact hk hshown
      rw [hslot, if_neg hki, if_pos]
      exact hheld.symm.imp_right fun hready => ⟨hready, hstays⟩
    · have hki : k ≠ i := by rintro rfl; exact hk hshown
      rw [hslot, if_neg hki, if_neg]
      rintro (hs | ⟨hready, hdropped⟩)
      · exact h.shown_not_ready hs (hsub.subset (hstays (Or.inr hs)))
      · exact hdropped (hstays (Or.inl hready))
    · obtain rfl := Option.some.inj (hcontent.symm.trans hd)
      exact hnewer k hk r hr

/-- The stale slots are READY ones (R127). -/
theorem SlotTable.mem_of_staleFor {t : SlotTable} {c : Content} {k : Nat} (hk : k ∈ t.staleFor c) : k ∈ t.readyQueue :=
  List.mem_of_mem_filter hk

@[simp] theorem SlotTable.releaseStale_shown (t : SlotTable) (c : Content) : (t.releaseStale c).shown = t.shown :=
  (SlotTable.freeAll_kept _ t).1

theorem SlotTable.releaseStale_length (t : SlotTable) (c : Content) :
    (t.releaseStale c).slots.length = t.slots.length := SlotTable.freeAll_length _ t

theorem SlotTable.releaseStale_readyQueue (t : SlotTable) (c : Content) :
    (t.releaseStale c).readyQueue = t.readyQueue.filter (fun k => decide (k ∉ t.staleFor c)) := rfl

theorem SlotTable.releaseStale_reorders {t : SlotTable} (h : t.Sound) (ho : t.Ordered) (c : Content) :
    t.Reorders (t.releaseStale c) := by
  have hshown := t.releaseStale_shown c
  have hqueue := t.releaseStale_readyQueue c
  have hslot (k : Nat) : (t.releaseStale c).slot k = if k ∈ t.staleFor c then State.freeSlot else t.slot k :=
    t.skip_slot (t.staleFor c) k
  have hmem (k : Nat) : k ∈ (t.releaseStale c).readyQueue ↔ k ∈ t.readyQueue ∧ k ∉ t.staleFor c := by
    rw [hqueue, List.mem_filter, decide_eq_true_eq]
  have hfresh {k : Nat} (hs : t.shown = some k) : k ∉ t.staleFor c := fun hk =>
    h.shown_not_ready hs (SlotTable.mem_of_staleFor hk)
  have hcontent : (t.releaseStale c).shownContent = t.shownContent :=
    SlotTable.shownContent_congr hshown fun k hs => by rw [hslot, if_neg (hfresh hs)]
  refine ⟨t.releaseStale_length c, hqueue ▸ List.filter_sublist, fun k hk => ?_, fun k hk => ?_, fun k hheld hk hstays => ?_,
    fun k hk hstays => ?_, fun d hd k hk r hr => ?_⟩
  · rw [hshown] at hk
    exact ⟨Or.inr hk, fun hready => h.shown_not_ready hk ((hmem k).1 hready).1⟩
  · rw [hshown] at hk
    rw [hslot, if_neg (hfresh hk), ← (h.shown k).1 hk]
  · rw [hslot, if_pos]
    have hready := hheld.resolve_right (hshown ▸ hk)
    by_contra hstale
    exact hstays ((hmem k).2 ⟨hready, hstale⟩)
  · rw [hslot, if_neg]
    exact fun hstale => ((hmem k).1 (hstays (Or.inl (SlotTable.mem_of_staleFor hstale)))).2 hstale
  · exact ho.newer_of_shown d (hcontent ▸ hd) k ((hmem k).1 hk).1 r hr

end Sys2Proof.Machine
end

section
/-! Every step keeps the Slot Table consistent and ordered, SHOWN a MEMBER's alone, and the Input Port and the Slot Table in
agreement (R111, R116 to R123). -/

namespace Sys2Proof.Machine

open Sys2Proof

/-! ## A running part -/

/-- The Slot Table of a running part is consistent and ordered, only a MEMBER shows a frame, and the Input Port receives the
frame that fills. -/
structure State.TableRuns (s : State) : Prop where
  sound : s.table.Sound
  ordered : s.table.Ordered
  shown : s.table.shown ≠ none → s.member.state = .member
  input : s.input.Follows s.table

theorem tableInputLegal_iff (s : State) : s.TableLegal ∧ s.InputLegal ↔
    s.TableRuns ∧ (s.running = false → s.table = State.resetTable ∧ s.input = State.resetInput) := by
  constructor
  · rintro ⟨⟨hcons, hord, hshown, htable⟩, hreceiving, hquiet, hinput⟩
    have hsound := (s.table.consistent_iff).1 hcons
    exact ⟨⟨hsound, hord, hshown, (hsound.follows_iff _).2 ⟨hreceiving, hquiet⟩⟩, fun hr => ⟨htable hr, hinput hr⟩⟩
  · rintro ⟨⟨hsound, hord, hshown, hfollows⟩, hheld⟩
    obtain ⟨hreceiving, hquiet⟩ := (hsound.follows_iff _).1 hfollows
    exact ⟨⟨(s.table.consistent_iff).2 hsound, hord, hshown, fun hr => (hheld hr).1⟩, hreceiving, hquiet,
      fun hr => (hheld hr).2⟩

/-- A table and an Input Port in their reset conditions agree, in any membership state (R116, R134). -/
theorem State.tableRuns_of_reset {s : State} (htable : s.table = State.resetTable) (hinput : s.input = State.resetInput) :
    s.TableRuns := by
  have hsound := (SlotTable.consistent_iff _).1 resetTable_consistent
  obtain ⟨-, hord, -⟩ := reset_tableLegal
  obtain ⟨hreceiving, hquiet, -⟩ := reset_inputLegal
  refine ⟨htable ▸ hsound, htable ▸ hord, fun hne => ?_, ?_⟩
  · rw [htable] at hne
    exact absurd rfl hne
  · rw [htable, hinput]
    exact (hsound.follows_iff _).2 ⟨hreceiving, hquiet⟩

/-! ## The swap line (R107 to R111) -/

section
variable {s : State}

theorem State.member_of_swapWord_stays (h : s.swapWord = .stays) : s.member.state = .member := by
  unfold State.swapWord State.joinerWord at h
  repeat' split at h
  all_goals simp_all

/-- The swap-line word reorders the Slot Table, and leaves a frame SHOWN in MEMBER alone (R111, R124 to R127). -/
theorem State.actOnSwapWord_table (h : s.TableRuns) : s.table.Reorders (s.actOnWord s.swapWord).table ∧
    ((s.actOnWord s.swapWord).table.shown ≠ none → (s.actOnWord s.swapWord).member.state = .member) := by
  have unchanged : s.table.Reorders s.table := .refl h.sound h.ordered
  cases hword : s.swapWord with
  | stays =>
    have hmember : (s.actOnWord .stays).member = s.member := by simp [State.actOnWord]
    refine ⟨?_, fun _ => hmember ▸ State.member_of_swapWord_stays hword⟩
    unfold State.actOnWord State.stayAtSwap
    dsimp only
    split
    · exact SlotTable.swapTo_reorders h.sound h.ordered _
    · exact unchanged
  | withdraws cause =>
    have htable : (s.actOnWord (.withdraws cause)).table = s.table.releaseShown := by
      simp [State.actOnWord, State.withdrawAtSwap]
    rw [htable]
    exact ⟨SlotTable.releaseShown_reorders h.sound, fun hne => absurd (by simp) hne⟩
  | joins target => exact ⟨SlotTable.swapTo_reorders h.sound h.ordered target, fun _ => rfl⟩
  | founds => exact ⟨unchanged, fun _ => rfl⟩
  | failedJoin target =>
    refine ⟨SlotTable.releaseStale_reorders h.sound h.ordered target, fun hne => h.shown ?_⟩
    exact s.table.releaseStale_shown target ▸ hne
  | none => exact ⟨unchanged, h.shown⟩

theorem State.swapLine_tableRuns (h : s.TableRuns) : s.swapLine.TableRuns := by
  have there : (s.moveTo s.settings.sw 1).TableRuns := { h with }
  obtain ⟨hreorders, hshown⟩ := State.actOnSwapWord_table there
  unfold State.swapLine State.takeSwapLine
  refine ⟨?_, ?_, ?_, ?_⟩
  · rw [State.reportFrame_table]
    exact hreorders.sound there.sound
  · rw [State.reportFrame_table]
    exact hreorders.ordered there.ordered
  · rw [State.reportFrame_table, State.reportFrame_member]
    exact hshown
  · have hinput : ((s.moveTo s.settings.sw 1).actOnWord (s.moveTo s.settings.sw 1).swapWord).input =
        (s.moveTo s.settings.sw 1).input := by simp
    rw [State.reportFrame_table, State.reportFrame_input, hinput]
    exact there.input.of_keeps (hreorders.keepsReception there.sound)

theorem State.Between.tableRuns {t : State} (h : s.Between t) (hs : s.TableRuns) : t.TableRuns where
  sound := h.table.sound
  ordered := h.table.ordered hs.ordered
  shown hne := h.member.2 (hs.shown (h.table.shown ▸ hne))
  input := h.input hs.input

/-! ## A part that is held, or that an image starts (R173, R174) -/

@[simp] theorem State.accept_table (s : State) (c : Settings) :
    (s.accept c).table = s.table ∧ (s.accept c).input = s.input := by
  simp [State.accept]

theorem State.imageRead_table (s : State) (bytes : List Byte) :
    (s.imageRead bytes).table = s.table ∧ (s.imageRead bytes).input = s.input := by
  unfold State.imageRead State.failAttempt State.halt
  dsimp only
  repeat' split
  · exact ⟨rfl, rfl⟩
  · exact ⟨rfl, rfl⟩
  · simp
  · exact ⟨rfl, rfl⟩

end

/-- A command that a held part takes leaves the Slot Table and the Input Port in their reset conditions. -/
theorem exec_held_table {c : Instr} {s t : State} (hr : s.running = false) (htable : s.table = State.resetTable)
    (hinput : s.input = State.resetInput) (hx : exec c s = .next t) :
    t.table = State.resetTable ∧ t.input = State.resetInput := by
  cases hc : c.actsHeld with
  | false =>
    rw [exec_held c s hr hc] at hx
    obtain rfl := Host.Outcome.next.inj hx
    exact ⟨htable, hinput⟩
  | true =>
    cases c with
    | reset kind =>
      obtain rfl := Host.Outcome.next.inj hx
      exact ⟨rfl, rfl⟩
    | resetRelease straps =>
      obtain rfl := Host.Outcome.next.inj hx
      unfold State.release
      split <;> exact ⟨htable, hinput⟩
    | imageReadDone bytes =>
      obtain rfl := Host.Outcome.next.inj hx
      obtain ⟨hkept, hkept'⟩ := s.imageRead_table bytes
      exact ⟨hkept.trans htable, hkept'.trans hinput⟩
    | recordSent =>
      obtain rfl := Host.Outcome.next.inj hx
      exact ⟨htable, hinput⟩
    | _ => cases hc

/-! ## Every step -/

theorem exec_tableRuns {c : Instr} {s t : State} (h : s.TableRuns) (hr : s.running = true) (hc : ∀ kind, c ≠ .reset kind)
    (hx : exec c s = .next t) : t.TableRuns := by
  by_cases hswap : c = .swapLine
  · subst hswap
    rw [next_of_running hr hx]
    exact State.swapLine_tableRuns h
  · exact (exec_between h.sound hr hswap hc hx).tableRuns h

theorem exec_keeps_table {c : Instr} {s t : State} (h : s.TableLegal ∧ s.InputLegal) (hlegal : s.MembershipLegal)
    (hx : exec c s = .next t) : t.TableLegal ∧ t.InputLegal := by
  obtain ⟨hruns, hheld⟩ := (tableInputLegal_iff s).1 h
  refine (tableInputLegal_iff t).2 ?_
  by_cases hreset : ∃ kind, c = .reset kind
  · obtain ⟨kind, rfl⟩ := hreset
    obtain rfl := Host.Outcome.next.inj hx
    exact ⟨State.tableRuns_of_reset rfl rfl, fun _ => ⟨rfl, rfl⟩⟩
  cases hr : s.running with
  | true =>
    have hc (kind : ResetKind) : c ≠ .reset kind := fun heq => hreset ⟨kind, heq⟩
    obtain ⟨hrun, -⟩ := (membershipLegal_iff s).1 hlegal
    have hrunning : t.running = true := by rw [State.running_congr (exec_agrees (hrun hr) hr hc hx).2, hr]
    exact ⟨exec_tableRuns hruns hr hc hx, fun hstops => by rw [hrunning] at hstops; cases hstops⟩
  | false =>
    obtain ⟨htable, hinput⟩ := hheld hr
    obtain ⟨htable', hinput'⟩ := exec_held_table hr htable hinput hx
    exact ⟨State.tableRuns_of_reset htable' hinput', fun _ => ⟨htable', hinput'⟩⟩

theorem tick_keeps_table {s : State} (h : s.TableLegal ∧ s.InputLegal) : s.tick.TableLegal ∧ s.tick.InputLegal := by
  have hrunning : s.tick.running = s.running := by simp [State.running, tick_loader_phase]
  obtain ⟨-, -, -, hmember, htable, hinput, -⟩ := s.tick_frame
  unfold State.TableLegal State.InputLegal
  rw [hrunning, hmember, htable, hinput]
  exact h

/-- Settles O57: a step is the pixel clock's or the front command's, and each keeps the table and the Input Port in
agreement. -/
theorem everyStepKeepsTheSlotTable : Obligations.EveryStepKeepsTheSlotTable := by
  intro s t htable hinput hlegal hstep
  unfold step at hstep
  split at hstep
  · obtain rfl := Host.Outcome.next.inj hstep
    exact tick_keeps_table ⟨htable, hinput⟩
  · rename_i c rest _
    exact exec_keeps_table (s := { s with pending := rest }) ⟨htable, hinput⟩ hlegal hstep

end Sys2Proof.Machine
end

section
/-! The swap line of a JOINING station: it joins, founds, releases stale frames at a failed join, or waits (R107 to R110, R124,
R127). -/

namespace Sys2Proof.Machine

open Sys2Proof

/-! ## The stale frames of a failed join (R127) -/

/-- Slot `k` holds a content older than or equal to `c`. -/
def SlotTable.isStale (t : SlotTable) (c : Content) (k : Nat) : Bool :=
  match t.contentOf k with
  | some r => newer c r || decide (r = c)
  | none => false

theorem SlotTable.staleFor_eq (t : SlotTable) (c : Content) : t.staleFor c = t.readyQueue.filter (t.isStale c) := rfl

/-- The READY slots that are not stale stay. -/
theorem SlotTable.releaseStale_fresh (t : SlotTable) (c : Content) :
    (t.releaseStale c).readyQueue = t.readyQueue.filter (fun k => !t.isStale c k) := by
  rw [t.releaseStale_readyQueue c, SlotTable.staleFor_eq]
  exact List.filter_congr fun k hk => by simp [hk]

theorem SlotTable.releaseStale_queue (t : SlotTable) (c : Content) : (t.releaseStale c).readyQueue =
    t.readyQueue.filter (fun k => match t.contentOf k with
      | some r => !(newer c r || decide (r = c))
      | none => true) := by
  rw [t.releaseStale_fresh c]
  refine List.filter_congr fun k _ => ?_
  unfold SlotTable.isStale
  cases t.contentOf k <;> rfl

theorem SlotTable.releaseStale_slot {t : SlotTable} {k : Nat} (hk : k ∈ t.readyQueue) (c : Content) :
    (t.releaseStale c).slot k = if k ∈ (t.releaseStale c).readyQueue then t.slot k else State.freeSlot := by
  rw [SlotTable.releaseStale, SlotTable.skip_slot, ← SlotTable.releaseStale]
  by_cases hstale : t.isStale c k = true <;> simp [t.releaseStale_fresh c, SlotTable.staleFor_eq, hk, hstale]

theorem SlotTable.releaseStale_skipped (t : SlotTable) (c : Content) : (t.releaseStale c).skipped =
    t.skipped + BitVec.ofNat 16 (t.readyQueue.length - (t.releaseStale c).readyQueue.length) := by
  have hsplit := List.length_eq_length_filter_add (l := t.readyQueue) (t.isStale c)
  have hcount : (t.releaseStale c).skipped = t.skipped + BitVec.ofNat 16 (t.staleFor c).length := rfl
  rw [hcount, t.releaseStale_fresh c, hsplit, Nat.add_sub_cancel, t.staleFor_eq]

/-! ## The word of a JOINING station (R107 to R110) -/

section
variable {s : State} (hj : s.member.state = .joining)
include hj

theorem State.swapWord_joined {T : Content} (htarget : s.consent.target = some T) (hready : s.joinReady = true) :
    s.swapWord = .joins T := by
  simp [State.swapWord_joiner hj, State.joinerWord, htarget, hready]

theorem State.swapWord_founds (hready : s.joinReady = false) (hempty : s.member.emptyRun = 2) : s.swapWord = .founds := by
  rw [State.swapWord_joiner hj, State.joinerWord]
  cases s.consent.target <;> simp [hready, hempty, Config.emptyRollCallLimit]

theorem State.swapWord_failedJoin {T : Content} (htarget : s.consent.target = some T) (hready : s.joinReady = false)
    (hempty : s.member.emptyRun ≠ 2) (hhigh : s.member.verdictLevel = some .high) : s.swapWord = .failedJoin T := by
  simp [State.swapWord_joiner hj, State.joinerWord, htarget, hready, hempty, hhigh, Config.emptyRollCallLimit]

/-- Without a target or a verdict HIGH, and without two empty roll calls, the word is NONE (R107). -/
theorem State.swapWord_waits (hfails : s.consent.target = none ∨ s.member.verdictLevel ≠ some .high)
    (hempty : s.member.emptyRun ≠ 2) : s.swapWord = .none := by
  rw [State.swapWord_joiner hj, State.joinerWord]
  cases htarget : s.consent.target with
  | none => simp [hempty, Config.emptyRollCallLimit]
  | some T =>
    have hlow := hfails.resolve_left (by simp [htarget])
    have hready : s.joinReady = false := Bool.eq_false_iff.2 fun h => hlow (s.joinReady_iff.1 h).1
    simp [hready, hempty, hlow, Config.emptyRollCallLimit]

end

/-! ## What the swap line leaves (R107, R178) -/

/-- The report of the frame leaves what the word has done. -/
theorem State.swapLine_acted (s : State) : s.swapLine.tb = s.swapActed.tb ∧ s.swapLine.table = s.swapActed.table ∧
    s.swapLine.member = s.swapActed.member ∧
    ∃ more, s.swapLine.report.queue = s.swapActed.report.queue ++ more := by
  rw [s.swapLine_eq]
  exact ⟨by simp, by simp, by simp, s.swapActed.reportFrame_queue _ _⟩

/-- Only a withdrawal changes the Link Interface or the Consent Unit at the swap line (R75, R111). -/
theorem State.actOnWord_kept (s : State) {word : SwapWord} (hstays : ∀ cause, word ≠ .withdraws cause) :
    (s.actOnWord word).link = s.link ∧ (s.actOnWord word).consent = s.consent := by
  cases word with
  | withdraws cause => exact absurd rfl (hstays cause)
  | stays => simp [State.actOnWord]
  | joins | founds | failedJoin | none => exact ⟨rfl, rfl⟩

theorem State.swapLine_joiner_frame {s : State} (hj : s.member.state = .joining) : s.swapLine =
    { s with tb := s.swapLine.tb, table := s.swapLine.table, member := s.swapLine.member, report := s.swapLine.report } := by
  have hstays (cause : WithdrawalCause) : s.swapWord ≠ .withdraws cause := fun hword => by
    have hmember := State.swapWord_withdraws hword
    rw [hj] at hmember
    cases hmember
  obtain ⟨hlink, hconsent⟩ := (s.moveTo s.settings.sw 1).actOnWord_kept hstays
  have hline : s.swapLine.link = s.link ∧ s.swapLine.consent = s.consent := by
    rw [s.swapLine_eq, State.reportFrame_link, State.reportFrame_consent]
    exact ⟨hlink, hconsent⟩
  rw [State.ext_iff]
  simp [hline.1, hline.2]

/-- Settles O35: the fields that the swap line can change, then the four words of a JOINING station. -/
theorem joinerJoinsFoundsOrWaits : Obligations.JoinerJoinsFoundsOrWaits := by
  intro s results hr hj hresults hcons hnone hroom
  obtain ⟨htb, htable, hmember, more, hmore⟩ := s.swapLine_acted
  obtain ⟨-, hafn, -, -⟩ := s.moveTo_kept s.settings.sw 1
  refine ⟨s.swapLine, exec_of_running hr rfl, State.swapLine_joiner_frame hj, ?_, ?_, ?_, ?_⟩
  · intro T i hhigh hR hheard hsettled htarget hheld hi hc hord
    have hready : s.joinReady = true := s.joinReady_iff.2 ⟨hhigh, hR, hheld, results, hresults, hheard, hsettled⟩
    have hacted : s.swapActed = (s.moveTo s.settings.sw 1).joinAtSwap T := by
      rw [State.swapActed, State.swapWord_joined hj htarget hready]
      rfl
    rw [hacted] at htb htable hmember hmore
    replace htable : s.swapLine.table = s.table.swapTo T := htable
    obtain ⟨hshown, hrefused, hdefective, hqueue, hskipped, hslot⟩ := s.table.swapTo_spec i T hcons hord hi hc
    have hreorders := SlotTable.swapTo_reorders ((s.table.consistent_iff).1 hcons) hord T
    have hnew : (s.table.swapTo T).slot i = { s.table.slot i with state := .shown } := (hslot i).trans (if_pos rfl)
    rw [htable, htb, hmore]
    refine ⟨hmember, hshown, by rw [hnew], ?_, hafn, hqueue, fun k hk => ?_, fun k hk hki hgone => ?_, hskipped, hrefused,
      hdefective, SlotTable.swapTo_fillingSlot hcons hord hi hc, more, ?_⟩
    · rw [SlotTable.contentOf, hnew]
      exact hc
    · exact hreorders.kept k (fun hs => (hreorders.shown k hs).2 hk) fun _ => hk
    · exact hreorders.freed k (Or.inl hk) (fun hs => hki (Option.some.inj (hs.symm.trans hshown))) hgone
    · rw [← hafn]
      exact congrArg (· ++ more) (State.postEvent_room _ (.joined T) hroom)
  · intro hempty hR
    have hready : s.joinReady = false := Bool.eq_false_iff.2 fun h => (s.joinReady_iff.1 h).2.1 hR
    have hacted : s.swapActed = (s.moveTo s.settings.sw 1).foundAtSwap := by
      rw [State.swapActed, State.swapWord_founds hj hready hempty]
      rfl
    rw [hacted] at htb htable hmember hmore
    refine ⟨hmember, htable, congrArg Timebase.afn htb, more, ?_⟩
    rw [hmore]
    exact congrArg (· ++ more) (State.postEvent_room _ .founded hroom)
  · intro T hhigh htarget hempty hfails
    have hready : s.joinReady = false := Bool.eq_false_iff.2 fun h => hfails (by
      obtain ⟨-, hR, hheld, results', hresults', hheard, hsettled⟩ := s.joinReady_iff.1 h
      obtain rfl := Option.some.inj (hresults.symm.trans hresults')
      exact ⟨hR, hheard, hsettled, hheld⟩)
    have hacted : s.swapActed = { s.moveTo s.settings.sw 1 with table := s.table.releaseStale T } := by
      rw [State.swapActed, State.swapWord_failedJoin hj htarget hready hempty hhigh]
      rfl
    rw [hacted] at htb htable hmember
    rw [htb, htable]
    exact ⟨hmember, hafn, (s.table.releaseStale_shown T).trans hnone, s.table.releaseStale_queue T,
      fun k hk => SlotTable.releaseStale_slot hk T, s.table.releaseStale_skipped T⟩
  · intro hfails hempty
    rw [State.swapActed_of_none (State.swapWord_waits hj hfails hempty)] at htb htable hmember
    exact ⟨hmember, htable, htb ▸ hafn⟩

end Sys2Proof.Machine
end

section
/-! The records of the Slot Table by number: one record changed, the search for a FREE slot, room for a frame, and contents that
are newer than what is held (R116 to R119, R131). -/

namespace Sys2Proof.Machine

open Sys2Proof

/-! ## One record changed (R116) -/

/-- The record of slot `i` is changed, and nothing else of the table. -/
def SlotTable.updateSlot (t : SlotTable) (i : Nat) (f : SlotRecord → SlotRecord) : SlotTable :=
  { t with slots := t.slots.modify i f }

theorem SlotTable.updateSlot_slot {t : SlotTable} {i : Nat} (hi : i < t.slots.length) (f : SlotRecord → SlotRecord) (k : Nat) :
    (t.updateSlot i f).slot k = if k = i then f (t.slot i) else t.slot k :=
  SlotTable.slot_of_modify (u := t.updateSlot i f) rfl hi k

/-- A change of record `i` is decided by what it makes of the record that stands there. -/
theorem SlotTable.updateSlot_congr {t : SlotTable} {i : Nat} {f g : SlotRecord → SlotRecord} (h : f (t.slot i) = g (t.slot i)) :
    t.updateSlot i f = t.updateSlot i g := by
  have hslots : t.slots.modify i f = t.slots.modify i g := by
    refine List.ext_getElem? fun k => ?_
    rw [List.getElem?_modify, List.getElem?_modify]
    by_cases hk : i = k
    · subst hk
      unfold SlotTable.slot at h
      cases hr : t.slots[i]? with
      | none => rfl
      | some r => rw [hr] at h; simpa using h
    · simp [hk]
  rw [SlotTable.updateSlot, hslots, SlotTable.updateSlot]

theorem SlotTable.updateSlot_updateSlot (t : SlotTable) (i : Nat) (f g : SlotRecord → SlotRecord) :
    (t.updateSlot i f).updateSlot i g = t.updateSlot i (g ∘ f) := by
  simp only [SlotTable.updateSlot, List.modify_modify_eq]

theorem SlotTable.updateSlot_contentOf {f : SlotRecord → SlotRecord} (hf : ∀ r, (f r).content = r.content) (t : SlotTable)
    (i : Nat) : (t.updateSlot i f).contentOf = t.contentOf := by
  funext k
  simp only [SlotTable.contentOf, SlotTable.slot, SlotTable.updateSlot, List.getElem?_modify]
  cases t.slots[k]? with
  | none => rfl
  | some r => by_cases hk : i = k <;> simp [hk, hf]

theorem SlotTable.updateSlot_fillingSlot {f : SlotRecord → SlotRecord} (hf : ∀ r, (f r).state = r.state) (t : SlotTable)
    (i : Nat) : (t.updateSlot i f).fillingSlot = t.fillingSlot := by
  have hstates : (t.slots.modify i f).map SlotRecord.state = t.slots.map SlotRecord.state := by
    refine List.ext_getElem? fun k => ?_
    simp only [List.getElem?_map, List.getElem?_modify]
    cases t.slots[k]? with
    | none => rfl
    | some r => by_cases hk : i = k <;> simp [hk, hf]
  have hsearch (l : List SlotRecord) : l.findIdx? (fun r => decide (r.state = .filling)) =
      (l.map SlotRecord.state).findIdx? (fun x => decide (x = .filling)) := by
    rw [List.findIdx?_map]; rfl
  simp only [SlotTable.fillingSlot, SlotTable.updateSlot, hsearch, hstates]

/-! ## Newer than what is held (R119, R122) -/

theorem SlotTable.newerThanHeld_iff (t : SlotTable) (c : Content) : t.newerThanHeld c = true ↔
    (∀ d, t.shownContent = some d → newer c d = true) ∧ ∀ d ∈ t.readyList, newer c d = true := by
  rw [SlotTable.newerThanHeld, Bool.and_eq_true, List.all_eq_true]
  cases t.shownContent <;> simp [newerThan]

theorem SlotTable.newerThanHeld_congr {t u : SlotTable} (hready : u.readyList = t.readyList)
    (hshown : u.shownContent = t.shownContent) (c : Content) : u.newerThanHeld c = t.newerThanHeld c := by
  rw [SlotTable.newerThanHeld, hready, hshown, SlotTable.newerThanHeld]

theorem SlotTable.updateSlot_newerThanHeld {f : SlotRecord → SlotRecord} (hf : ∀ r, (f r).content = r.content) (t : SlotTable)
    (i : Nat) (c : Content) : (t.updateSlot i f).newerThanHeld c = t.newerThanHeld c := by
  refine SlotTable.newerThanHeld_congr ?_ ?_ c
  · rw [SlotTable.readyList, SlotTable.updateSlot_contentOf hf]; rfl
  · rw [SlotTable.shownContent, SlotTable.updateSlot_contentOf hf]; rfl

/-! ## Room for a frame (R119, R131) -/

theorem SlotTable.freeSlotNumber_lowest {t : SlotTable} {i : Nat} (h : t.freeSlotNumber = some i) :
    i < t.slots.length ∧ (t.slot i).state = .free ∧ ∀ k < i, (t.slot k).state ≠ .free := by
  obtain ⟨hi, hfree⟩ := SlotTable.slot_of_findIdx h
  obtain ⟨_, _, hbelow⟩ := List.findIdx?_eq_some_iff_getElem.1 h
  refine ⟨hi, hfree, fun k hk => ?_⟩
  have hlt : k < t.slots.length := hk.trans hi
  simpa [SlotTable.slot, hlt] using hbelow k hk

theorem SlotTable.Sound.freeSlotNumber_isSome_iff {t : SlotTable} (h : t.Sound) :
    t.freeSlotNumber.isSome = true ↔ ∃ i < 4, (t.slot i).state = .free := by
  constructor
  · intro hsome
    obtain ⟨i, hi⟩ := Option.isSome_iff_exists.1 hsome
    obtain ⟨hlt, hfree, -⟩ := SlotTable.freeSlotNumber_lowest hi
    exact ⟨i, h.length ▸ hlt, hfree⟩
  · rintro ⟨i, hi, hfree⟩
    by_contra hnone
    rw [Option.not_isSome_iff_eq_none] at hnone
    exact SlotTable.slot_of_findIdx_none hnone (h.length.symm ▸ hi) hfree

theorem SlotTable.Sound.fillingSlot_isNone_iff {t : SlotTable} (h : t.Sound) :
    t.fillingSlot.isNone = true ↔ ∀ i < 4, (t.slot i).state ≠ .filling := by
  rw [Option.isNone_iff_eq_none]
  constructor
  · exact fun hnone i _ => h.not_filling_of_none hnone i
  · intro hno
    by_contra hsome
    obtain ⟨i, hi⟩ := Option.ne_none_iff_exists'.1 hsome
    have hfilling := h.fillingSlot_eq_some_iff.1 hi
    exact hno i (h.lt (by simp [hfilling])) hfilling

theorem SlotTable.Sound.hasRoom_iff {t : SlotTable} (h : t.Sound) : t.hasRoom = true ↔
    t.readyQueue.length ≤ 2 ∧ (∃ i < 4, (t.slot i).state = .free) ∧ ∀ i < 4, (t.slot i).state ≠ .filling := by
  have hcap : t.readyCount < Config.readyCap ↔ t.readyQueue.length ≤ 2 := Nat.lt_succ_iff
  rw [SlotTable.hasRoom, Bool.and_eq_true, Bool.and_eq_true, h.fillingSlot_isNone_iff, h.freeSlotNumber_isSome_iff,
    decide_eq_true_eq, hcap]
  tauto

end Sys2Proof.Machine
end

section
/-! FRAME_OPEN: the frame under reception is abandoned, and the new one is admitted to the lowest FREE slot or refused (R119, R123,
R131, R135, R142). -/

namespace Sys2Proof.Machine

open Sys2Proof

/-! ## The frame under reception is abandoned (R123, R135) -/

theorem State.discardFilling_eq {s : State} {k : Nat} (hk : s.table.fillingSlot = some k) : s.discardFilling = { s with
    table := { s.table.free k with defective := s.table.defective + 1 }
    transit := s.transit.sendMemory (.discard k) } := by
  simp only [State.discardFilling, SlotTable.discard, hk]

theorem State.abandonFrame_filling {s : State} {k : Nat} (hstate : s.input.state = .filling)
    (hk : s.table.fillingSlot = some k) : s.abandonFrame = { s with
    table := { s.table.free k with defective := s.table.defective + 1 }
    transit := s.transit.sendMemory (.discard k)
    input := s.input.abandon } := by
  rw [State.abandonFrame, if_pos hstate, State.discardFilling_eq hk]

theorem State.abandonFrame_not_filling {s : State} (hstate : s.input.state ≠ .filling) : s.abandonFrame = s :=
  if_neg hstate

/-- The slot of the frame under reception reads FREE, and every other slot as before. -/
theorem State.abandonFrame_slot {s : State} (hfollows : s.input.state = .filling → s.table.fillingSlot = some s.input.slot)
    (k : Nat) : s.abandonFrame.table.slot k =
      if s.input.state = .filling ∧ k = s.input.slot then ⟨.free, none, 0, false⟩ else s.table.slot k := by
  by_cases hstate : s.input.state = .filling
  · rw [State.abandonFrame_filling hstate (hfollows hstate)]
    simp only [hstate, true_and]
    exact s.table.free_slot s.input.slot k
  · rw [State.abandonFrame_not_filling hstate, if_neg fun h => hstate h.1]

theorem State.abandonFrame_readyQueue (s : State) : s.abandonFrame.table.readyQueue = s.table.readyQueue := by
  unfold State.abandonFrame
  split
  · rw [State.discardFilling_table, SlotTable.discard]; split <;> rfl
  · rfl

/-- An abandonment touches no READY and no SHOWN slot. -/
theorem State.abandonFrame_newerThanHeld {s : State} (h : s.table.Sound) (c : Content) :
    s.abandonFrame.table.newerThanHeld c = s.table.newerThanHeld c := by
  have hfills := State.abandonFrame_fills h
  refine SlotTable.newerThanHeld_congr ?_ (SlotTable.shownContent_congr hfills.shown fun k hk => hfills.held k (Or.inr hk)) c
  rw [SlotTable.readyList, s.abandonFrame_readyQueue]
  exact SlotTable.contents_congr fun k hk => hfills.held k (Or.inl hk)

/-- With a frame under reception abandoned there is room wherever the ready queue has room (R119, R135). -/
theorem State.abandonFrame_hasRoom_iff {s : State} (h : s.table.Sound)
    (hfollows : s.input.state = .filling → s.table.fillingSlot = some s.input.slot) :
    s.abandonFrame.table.hasRoom = true ↔ s.table.readyQueue.length ≤ 2 ∧ (s.input.state = .filling ∨
      (∃ i < 4, (s.table.slot i).state = .free) ∧ ∀ i < 4, (s.table.slot i).state ≠ .filling) := by
  rw [(State.abandonFrame_fills h).sound.hasRoom_iff, s.abandonFrame_readyQueue]
  by_cases hstate : s.input.state = .filling
  · have hslot := State.abandonFrame_slot hfollows
    have hfilling := h.fillingSlot_eq_some_iff.1 (hfollows hstate)
    have hfreed : ∃ i < 4, (s.abandonFrame.table.slot i).state = .free :=
      ⟨s.input.slot, h.lt (by simp [hfilling]), by rw [hslot, if_pos ⟨hstate, rfl⟩]⟩
    have hnone : ∀ i < 4, (s.abandonFrame.table.slot i).state ≠ .filling := by
      intro i _ hi
      rw [hslot] at hi
      split at hi
      · cases hi
      · rename_i hother
        exact hother ⟨hstate, h.oneFilling i s.input.slot hi hfilling⟩
    exact and_congr_right' (iff_of_true ⟨hfreed, hnone⟩ (Or.inl hstate))
  · simp only [State.abandonFrame_not_filling hstate, hstate, false_or]

/-! ## Admission (R119, R135) -/

/-- What an admission request can do: the lowest FREE slot starts FILLING, or the frame is refused, counted and drained. -/
theorem State.requestAdmission_cases (s : State) (c : Content) :
    (∃ i, (s.table.hasRoom = true ∧ s.table.newerThanHeld c = true) ∧ s.table.freeSlotNumber = some i ∧
      s.requestAdmission c = { s with
        table := s.table.updateSlot i fun _ => fillingRecord c
        input := s.input.startFilling i }) ∨
    ¬(s.table.hasRoom = true ∧ s.table.newerThanHeld c = true) ∧
      s.requestAdmission c = { s with
        table := { s.table with refused := s.table.refused + 1 }
        input := s.input.startDraining } := by
  by_cases hroom : s.table.hasRoom = true
  · by_cases hnewer : s.table.newerThanHeld c = true
    · have hfree : s.table.freeSlotNumber.isSome = true := by
        simp only [SlotTable.hasRoom, Bool.and_eq_true] at hroom
        exact hroom.1.2
      obtain ⟨i, hi⟩ := Option.isSome_iff_exists.1 hfree
      refine Or.inl ⟨i, ⟨hroom, hnewer⟩, hi, ?_⟩
      simp only [State.requestAdmission, SlotTable.request, SlotTable.answer, hroom, hnewer, hi, if_true]
      rfl
    · refine Or.inr ⟨fun h => hnewer h.2, ?_⟩
      simp only [State.requestAdmission, SlotTable.request, SlotTable.answer, hroom, hnewer, if_true]
      rfl
  · refine Or.inr ⟨fun h => hroom h.1, ?_⟩
    simp only [State.requestAdmission, SlotTable.request, SlotTable.answer, hroom]
    rfl

/-- The same of a FRAME_OPEN, which has abandoned the frame under reception and sent an arrival. -/
theorem State.frameOpen_cases (s : State) (c : Content) :
    (∃ i, (s.abandonFrame.table.hasRoom = true ∧ s.abandonFrame.table.newerThanHeld c = true) ∧
      s.abandonFrame.table.freeSlotNumber = some i ∧
      s.frameOpen c = { s.abandonFrame with
        transit := s.abandonFrame.transit.sendReport .arrival
        table := s.abandonFrame.table.updateSlot i fun _ => fillingRecord c
        input := s.abandonFrame.input.startFilling i }) ∨
    ¬(s.abandonFrame.table.hasRoom = true ∧ s.abandonFrame.table.newerThanHeld c = true) ∧
      s.frameOpen c = { s.abandonFrame with
        transit := s.abandonFrame.transit.sendReport .arrival
        table := { s.abandonFrame.table with refused := s.abandonFrame.table.refused + 1 }
        input := s.abandonFrame.input.startDraining } :=
  State.requestAdmission_cases { s.abandonFrame with transit := s.abandonFrame.transit.sendReport .arrival } c

/-- An abandonment leaves every part alone but the records, the count of defective frames, the line buffers and the discard sent. -/
theorem State.abandonFrame_kept (s : State) : s.abandonFrame = { s with
    table := { s.table with slots := s.abandonFrame.table.slots, defective := s.abandonFrame.table.defective }
    input := { s.input with pixelCount := s.abandonFrame.input.pixelCount, buffers := s.abandonFrame.input.buffers }
    transit := { s.transit with toMemory := s.abandonFrame.transit.toMemory } } := by
  by_cases hstate : s.input.state = .filling
  · cases hk : s.table.fillingSlot with
    | none => simp [State.abandonFrame, State.discardFilling, hstate, hk, InputPort.abandon, InputPort.emptyBuffers]
    | some k => rw [State.abandonFrame_filling hstate hk]; rfl
  · rw [State.abandonFrame_not_filling hstate]

/-- What a FRAME_OPEN leaves alone, admitted or refused, and what it takes over from the abandonment. -/
theorem State.frameOpen_kept (s : State) (c : Content) :
    s.frameOpen c = { s with
      table := { s.table with slots := (s.frameOpen c).table.slots, refused := (s.frameOpen c).table.refused,
                              defective := (s.frameOpen c).table.defective }
      input := (s.frameOpen c).input
      transit := { s.transit with toPclk := s.transit.toPclk ++ [.arrival],
                                  toMemory := (s.frameOpen c).transit.toMemory } } ∧
    (s.frameOpen c).input.window = true ∧ (s.frameOpen c).input.stray = s.input.stray ∧
    (s.frameOpen c).table.defective = s.abandonFrame.table.defective ∧
    (s.frameOpen c).transit.toMemory = s.abandonFrame.transit.toMemory ∧
    (s.frameOpen c).input.buffers = s.abandonFrame.input.buffers := by
  have hkept := s.abandonFrame_kept
  obtain ⟨i, -, -, hopen⟩ | ⟨-, hopen⟩ := s.frameOpen_cases c
  · rw [hopen, hkept]
    exact ⟨rfl, rfl, rfl, rfl, rfl, rfl⟩
  · rw [hopen, hkept]
    exact ⟨rfl, rfl, rfl, rfl, rfl, rfl⟩

theorem State.readyPin_high_iff (s : State) : s.readyPin = .high ↔ s.running = true ∧ s.table.hasRoom = true := by
  rw [State.readyPin, ← Bool.and_eq_true]
  split <;> simp_all

/-- Settles O42: the abandonment, then the two answers to the admission request. -/
theorem frameOpenIsAdmittedOrRefused : Obligations.FrameOpenIsAdmittedOrRefused := by
  intro s content hr hcons hlegal
  have hsound := (s.table.consistent_iff).1 hcons
  have hfollows : s.input.state = .filling → s.table.fillingSlot = some s.input.slot := fun h => (hlegal.1 h).1
  have hslot := State.abandonFrame_slot hfollows
  obtain ⟨hkept, hwindow, hstray, hdefective, hmemory, hbuffers⟩ := s.frameOpen_kept content
  refine ⟨s.frameOpen content, exec_of_running hr rfl, hkept, hwindow, hstray, ?_, ?_, ?_, ?_⟩
  · intro hstate
    rw [hdefective, hmemory, hbuffers, State.abandonFrame_filling hstate (hfollows hstate)]
    refine ⟨rfl, rfl, fun b hb => ?_⟩
    obtain ⟨-, -, rfl⟩ := List.mem_map.1 hb
    rfl
  · intro hstate
    rw [hdefective, hmemory, hbuffers, State.abandonFrame_not_filling hstate]
    exact ⟨rfl, rfl, rfl⟩
  · intro room newest hroom hnewest
    rw [← State.abandonFrame_hasRoom_iff hsound hfollows] at hroom
    rw [← SlotTable.newerThanHeld_iff, ← State.abandonFrame_newerThanHeld hsound] at hnewest
    have hrefused : s.abandonFrame.table.refused = s.table.refused := by rw [s.abandonFrame_kept]
    rw [hroom, hnewest]
    obtain ⟨i, hasked, hi, hopen⟩ | ⟨hasked, hopen⟩ := s.frameOpen_cases content
    · obtain ⟨hlt, hfree, hlowest⟩ := SlotTable.freeSlotNumber_lowest hi
      have hnew := SlotTable.updateSlot_slot hlt fun _ => fillingRecord content
      have hlt4 : i < 4 := (State.abandonFrame_fills hsound).sound.length ▸ hlt
      refine ⟨fun _ => ?_, fun h => absurd hasked h⟩
      rw [hopen]
      refine ⟨rfl, hlt4, rfl, rfl, hrefused, ?_, fun k _ hk => ?_, (hnew i).trans (if_pos rfl), fun k _ hk => ?_⟩
      · rw [hslot] at hfree
        split at hfree
        · exact Or.inr ‹_›
        · exact Or.inl hfree
      · have hbelow := hlowest k hk
        rw [hslot] at hbelow
        split at hbelow
        · exact absurd rfl hbelow
        · rename_i hother
          exact ⟨hbelow, fun hstate hki => hother ⟨hstate, hki⟩⟩
      · exact ((hnew k).trans (if_neg hk)).trans (hslot k)
    · refine ⟨fun h => absurd h hasked, fun _ => ?_⟩
      rw [hopen]
      exact ⟨rfl, congrArg (· + 1) hrefused, fun k _ => hslot k⟩
  · exact s.readyPin_high_iff.trans ((and_iff_right hr).trans hsound.hasRoom_iff)

end Sys2Proof.Machine
end

section
/-! The completion of the FILLING slot, by the record that a report leaves there: READY at the end of the queue, freed and skipped,
or still FILLING (R121, R122). -/

namespace Sys2Proof.Machine

open Sys2Proof

/-! ## Completion by content (R122) -/

theorem SlotTable.complete_newer {t : SlotTable} {i : Nat} {c : Content} (hc : t.contentOf i = some c)
    (hnewer : t.newerThanHeld c = true) : t.complete i =
      { t.updateSlot i fun r => { r with state := .ready } with readyQueue := t.readyQueue ++ [i] } := by
  simp only [SlotTable.complete, hc, hnewer, if_true]
  rfl

theorem SlotTable.complete_older {t : SlotTable} {i : Nat} {c : Content} (hc : t.contentOf i = some c)
    (holder : t.newerThanHeld c = false) : t.complete i =
      { t.updateSlot i fun _ => ⟨.free, none, 0, false⟩ with skipped := t.skipped + 1 } := by
  simp only [SlotTable.complete, hc, holder]
  rfl

/-! ## A report to the FILLING slot (R121) -/

section
variable {t : SlotTable} {i wh : Nat} {f : SlotRecord → SlotRecord}

theorem SlotTable.completeIfDone_of_filling (hi : t.fillingSlot = some i) : t.completeIfDone wh =
    if (t.slot i).closing = true ∧ (t.slot i).linesWritten = wh then t.complete i else t := by
  simp only [SlotTable.completeIfDone, hi]

/-- A report that leaves the record without its closing flag or without its lines completes nothing. -/
theorem SlotTable.updateSlot_completeIfDone_not (hi : t.fillingSlot = some i) (hstate : ∀ r, (f r).state = r.state)
    (hdone : ¬((f (t.slot i)).closing = true ∧ (f (t.slot i)).linesWritten = wh)) :
    (t.updateSlot i f).completeIfDone wh = t.updateSlot i f := by
  have hlt := (SlotTable.slot_of_findIdx hi).1
  rw [SlotTable.completeIfDone_of_filling ((SlotTable.updateSlot_fillingSlot hstate t i).trans hi),
    SlotTable.updateSlot_slot hlt, if_pos rfl, if_neg hdone]

theorem SlotTable.updateSlot_completeIfDone (hi : t.fillingSlot = some i) (hstate : ∀ r, (f r).state = r.state)
    (hdone : (f (t.slot i)).closing = true ∧ (f (t.slot i)).linesWritten = wh) :
    (t.updateSlot i f).completeIfDone wh = (t.updateSlot i f).complete i := by
  have hlt := (SlotTable.slot_of_findIdx hi).1
  rw [SlotTable.completeIfDone_of_filling ((SlotTable.updateSlot_fillingSlot hstate t i).trans hi),
    SlotTable.updateSlot_slot hlt, if_pos rfl, if_pos hdone]

/-- A report that leaves the record closing and all its lines written completes the slot: READY, last in the queue. -/
theorem SlotTable.updateSlot_completes_ready {c : Content} (hi : t.fillingSlot = some i) (hstate : ∀ r, (f r).state = r.state)
    (hcontent : ∀ r, (f r).content = r.content)
    (hdone : (f (t.slot i)).closing = true ∧ (f (t.slot i)).linesWritten = wh) (hc : t.contentOf i = some c)
    (hnewer : t.newerThanHeld c = true) : (t.updateSlot i f).completeIfDone wh =
      { t.updateSlot i fun r => { f r with state := .ready } with readyQueue := t.readyQueue ++ [i] } := by
  rw [SlotTable.updateSlot_completeIfDone hi hstate hdone,
    SlotTable.complete_newer (by rw [SlotTable.updateSlot_contentOf hcontent, hc])
      (by rw [SlotTable.updateSlot_newerThanHeld hcontent, hnewer]), SlotTable.updateSlot_updateSlot]
  rfl

/-- The same report where a newer content is held by then: the slot is freed, and the frame counted as skipped. -/
theorem SlotTable.updateSlot_completes_skipped {c : Content} (hi : t.fillingSlot = some i) (hstate : ∀ r, (f r).state = r.state)
    (hcontent : ∀ r, (f r).content = r.content)
    (hdone : (f (t.slot i)).closing = true ∧ (f (t.slot i)).linesWritten = wh) (hc : t.contentOf i = some c)
    (holder : t.newerThanHeld c = false) : (t.updateSlot i f).completeIfDone wh =
      { t.updateSlot i fun _ => ⟨.free, none, 0, false⟩ with skipped := t.skipped + 1 } := by
  rw [SlotTable.updateSlot_completeIfDone hi hstate hdone,
    SlotTable.complete_older (by rw [SlotTable.updateSlot_contentOf hcontent, hc])
      (by rw [SlotTable.updateSlot_newerThanHeld hcontent, holder]), SlotTable.updateSlot_updateSlot]
  rfl

end

end Sys2Proof.Machine
end

section
/-! The words of FILLING: those that its grammar accepts, and the defects (R121 to R123, R137 to R139, R143 to R145). -/

namespace Sys2Proof.Machine

open Sys2Proof

/-! ## The line buffers (R137, R143) -/

theorem InputPort.emptyBufferNumber_eq {p : InputPort} {b : Nat} (hb : ∃ x, p.buffers[b]? = some x ∧ x.state = .empty)
    (hbelow : ∀ k < b, ∀ x, p.buffers[k]? = some x → x.state ≠ .empty) : p.emptyBufferNumber = some b := by
  obtain ⟨x, hx, hempty⟩ := hb
  obtain ⟨hlt, rfl⟩ := List.getElem?_eq_some_iff.1 hx
  refine List.findIdx?_eq_some_iff_getElem.2 ⟨hlt, by simpa using hempty, fun k hk => ?_⟩
  simpa using hbelow k hk _ (List.getElem?_eq_getElem (hk.trans hlt))

theorem InputPort.emptyBufferNumber_none {p : InputPort} (h : ∀ b ∈ p.buffers, b.state ≠ .empty) :
    p.emptyBufferNumber = none :=
  List.findIdx?_eq_none_iff.2 fun b hb => by simpa using h b hb

theorem InputPort.openLine_eq (p : InputPort) (b j : Nat) : p.openLine b j = { p with
    pixelCount := some 0
    window := false
    buffers := p.buffers.set b ⟨.receiving, p.slot, j, 0, []⟩ } := by
  rw [InputPort.openLine, List.set_eq_modify]

/-- The last pixel word of a line, and the completion of the line (R137, R143). -/
theorem InputPort.completeLine_storePixel (p : InputPort) (count bursts : Nat) (colour : Colour) :
    (p.storePixel count colour).completeLine bursts = { p with
      pixelCount := none
      window := false
      expectedLine := p.expectedLine + 1
      buffers := p.buffers.map fun b =>
        if b.state = .receiving then
          { b with state := .waiting, toGrant := bursts, colours := b.colours ++ [colour] }
        else b } := by
  simp only [InputPort.completeLine, InputPort.storePixel, List.map_map]
  congr 2
  funext b
  by_cases hb : b.state = .receiving <;> simp [hb]

/-! ## The grammar of FILLING (R121, R137, R138) -/

section
variable {s : State}

theorem State.lineOpen_opens {index : BitVec 16} {b : Nat} (hstate : s.input.state = .filling) (hnone : s.input.pixelCount = none)
    (hindex : index.toNat = s.input.expectedLine) (hwh : index.toNat < s.settings.wh) (hb : s.input.emptyBufferNumber = some b) :
    s.lineOpen index = { s with input := s.input.openLine b index.toNat } := by
  simp only [State.lineOpen, hstate, State.openLine, hb]
  rw [if_pos ⟨hnone, hindex, hwh⟩]

theorem State.pixelWord_stores {count : Nat} (hstate : s.input.state = .filling) (hcount : s.input.pixelCount = some count)
    (hmore : count + 1 ≠ s.settings.ww) (colour : Colour) :
    s.pixelWord colour = { s with input := s.input.storePixel count colour } := by
  simp only [State.pixelWord, hstate, State.storePixel, hcount, if_neg hmore]

theorem State.pixelWord_completes {count : Nat} (hstate : s.input.state = .filling) (hcount : s.input.pixelCount = some count)
    (hlast : count + 1 = s.settings.ww) (colour : Colour) : s.pixelWord colour = { s with
      input := (s.input.storePixel count colour).completeLine s.settings.bursts
      transit := s.transit.sendMemory (.writerLine s.input.slot s.input.expectedLine) } := by
  simp only [State.pixelWord, hstate, State.storePixel, hcount, if_pos hlast]
  rfl

theorem State.frameClose_accepts {count : BitVec 16} (hstate : s.input.state = .filling) (hnone : s.input.pixelCount = none)
    (hlines : s.input.expectedLine = s.settings.wh) (hcount : count.toNat = s.settings.wh) :
    s.frameClose count = { s with input := s.input.finish, table := s.table.closeAccepted s.settings.wh } := by
  simp only [State.frameClose, hstate, State.closeFrame]
  rw [if_pos ⟨hnone, hlines, hcount⟩]

end

/-- Settles O43: one word of the grammar after another, and the three ends of an accepted FRAME_CLOSE. -/
theorem lineGrammarAcceptsTheFrame : Obligations.LineGrammarAcceptsTheFrame := by
  intro s hr hstate
  have hpixel (colour : Colour) : exec (.pixelWord colour) s = .next (s.pixelWord colour) := exec_of_running hr rfl
  refine ⟨fun index b hnone hindex hwh hb hbelow => ?_, fun colour count hcount hmore => ?_,
    fun colour count hcount hlast => ?_, fun count c k hnone hlines hcount hk hc => ?_⟩
  · rw [← s.input.openLine_eq,
      ← State.lineOpen_opens hstate hnone hindex hwh (InputPort.emptyBufferNumber_eq hb hbelow)]
    exact exec_of_running hr rfl
  · rw [hpixel, State.pixelWord_stores hstate hcount hmore]
    rfl
  · rw [hpixel, State.pixelWord_completes hstate hcount hlast, InputPort.completeLine_storePixel]
    rfl
  · have hclosed := SlotTable.closeAccepted_eq hk s.settings.wh
    refine ⟨s.frameClose count, exec_of_running hr rfl, ?_⟩
    rw [State.frameClose_accepts hstate hnone hlines hcount, hclosed]
    refine ⟨rfl, fun hwritten => ?_, fun hwritten hnewer => ?_, fun hwritten holder => ?_⟩
    · exact SlotTable.updateSlot_completeIfDone_not hk (fun _ => rfl) fun hdone => hwritten hdone.2
    · exact SlotTable.updateSlot_completes_ready hk (fun _ => rfl) (fun _ => rfl) ⟨rfl, hwritten⟩ hc hnewer
    · exact SlotTable.updateSlot_completes_skipped hk (fun _ => rfl) (fun _ => rfl) ⟨rfl, hwritten⟩ hc holder

/-! ## Defects (R139, R144) -/

theorem State.defect_eq {s : State} {k : Nat} (hk : s.table.fillingSlot = some k) : s.defect = { s with
    table := { s.table.free k with defective := s.table.defective + 1 }
    transit := s.transit.sendMemory (.discard k)
    input := s.input.drain } := by
  rw [State.defect, State.discardFilling_eq hk]

section
variable {s : State} (hstate : s.input.state = .filling)
include hstate

theorem State.pixelWord_defect (hnone : s.input.pixelCount = none) (colour : Colour) : s.pixelWord colour = s.defect := by
  simp only [State.pixelWord, hstate, State.storePixel, hnone]

/-- A short line, a wrong line index, a line too many, and an overrun (R144). -/
theorem State.lineOpen_defect {j : BitVec 16} (h : s.input.pixelCount ≠ none ∨ j.toNat ≠ s.input.expectedLine ∨
    s.settings.wh ≤ j.toNat ∨ ∀ b ∈ s.input.buffers, b.state ≠ .empty) : s.lineOpen j = s.defect := by
  simp only [State.lineOpen, hstate, State.openLine]
  by_cases hopens : s.input.pixelCount = none ∧ j.toNat = s.input.expectedLine ∧ j.toNat < s.settings.wh
  · obtain ⟨hnone, hindex, hwh⟩ := hopens
    have hoverrun : ∀ b ∈ s.input.buffers, b.state ≠ .empty :=
      ((h.resolve_left (· hnone)).resolve_left (· hindex)).resolve_left (Nat.not_le.2 hwh)
    simp only [hnone, hindex ▸ hwh, hindex, and_self, if_true, InputPort.emptyBufferNumber_none hoverrun]
  · rw [if_neg hopens]

theorem State.frameClose_defect {n : BitVec 16} (h : s.input.pixelCount ≠ none ∨ s.input.expectedLine ≠ s.settings.wh ∨
    n.toNat ≠ s.settings.wh) : s.frameClose n = s.defect := by
  simp only [State.frameClose, hstate, State.closeFrame]
  exact if_neg fun ⟨hnone, hlines, hcount⟩ => h.elim (· hnone) (·.elim (· hlines) (· hcount))

theorem State.frameFlags_defect (hwindow : s.input.window = false) (payload : BitVec 16) :
    s.frameFlags payload = s.defect := by
  simp [State.frameFlags, hstate, hwindow]

theorem State.controlWord_defect {word : BitVec 24} (hdamaged : decodeControlWord word = .damagedControlWord word) :
    s.controlWord word = s.defect := by
  simp only [State.controlWord, hdamaged, State.damagedWord, hstate]

end

/-- Settles O44: each of the five words is the defect. -/
theorem defectsDiscardTheFrame : Obligations.DefectsDiscardTheFrame := by
  intro s c k hr hstate hk hword
  have hexec : exec c s = .next s.defect := by
    rcases hword with ⟨colour, rfl, hnone⟩ | ⟨j, rfl, h⟩ | ⟨n, rfl, h⟩ | ⟨payload, rfl, hwindow⟩ | ⟨word, rfl, hdamaged⟩
    · exact State.pixelWord_defect hstate hnone colour ▸ exec_of_running hr rfl
    · exact State.lineOpen_defect hstate h ▸ exec_of_running hr rfl
    · exact State.frameClose_defect hstate h ▸ exec_of_running hr rfl
    · exact State.frameFlags_defect hstate hwindow payload ▸ exec_of_running hr rfl
    · exact State.controlWord_defect hstate (of_decide_eq_true hdamaged) ▸ exec_of_running hr rfl
  refine ⟨s.defect, hexec, ?_⟩
  rw [State.defect_eq hk]
  refine ⟨rfl, List.length_map _, fun b hb => ?_⟩
  obtain ⟨-, -, rfl⟩ := List.mem_map.1 hb
  rfl

end Sys2Proof.Machine
end

section
/-! The arbiter: the order of the claims, what a grant of each leaves, and the line buffer behind a writer claim (R123, R143, R145,
R150). -/

namespace Sys2Proof.Machine

open Sys2Proof

/-! ## The order of the claims (R150) -/

section
variable {p : MemoryPort} {urgent : Bool}

theorem MemoryPort.refreshChoice_none {overdue : Bool} (h : p.refresh ≠ .present overdue) : p.refreshChoice overdue = none :=
  if_neg h

theorem MemoryPort.choice_overdue (h : p.refresh = .present true) : p.choice urgent = some .refresh := by
  simp [MemoryPort.choice, MemoryPort.refreshChoice, h]

theorem MemoryPort.choice_urgent_reader {r : ReaderBurst} {rest : List ReaderBurst} (h : p.refresh ≠ .present true)
    (hreaders : p.readers = r :: rest) : p.choice true = some (.reader r rest) := by
  simp [MemoryPort.choice, MemoryPort.refreshChoice_none h, MemoryPort.readerChoice, hreaders]

/-- No claim stands before a writer claim: the refresh claim is not overdue, and no reader claim is urgent. -/
theorem MemoryPort.choice_writer {w : WriterLine} {rest : List WriterLine} (h : p.refresh ≠ .present true)
    (hreaders : urgent = false ∨ p.readers = []) (hwriters : p.writers = w :: rest) :
    p.choice urgent = some (.writer w rest) := by
  have hnone : (if urgent then p.readerChoice else none) = none := by
    rcases hreaders with rfl | hreaders
    · rfl
    · simp [MemoryPort.readerChoice, hreaders]
  simp [MemoryPort.choice, MemoryPort.refreshChoice_none h, hnone, MemoryPort.writerChoice, hwriters]

theorem MemoryPort.choice_reader {r : ReaderBurst} {rest : List ReaderBurst} (h : p.refresh ≠ .present true)
    (hwriters : p.writers = []) (hreaders : p.readers = r :: rest) : p.choice false = some (.reader r rest) := by
  simp [MemoryPort.choice, MemoryPort.refreshChoice_none h, MemoryPort.writerChoice, hwriters, MemoryPort.readerChoice, hreaders]

theorem MemoryPort.choice_no_lines (hoverdue : p.refresh ≠ .present true) (hwriters : p.writers = [])
    (hreaders : p.readers = []) : p.choice urgent = p.refreshChoice false := by
  simp [MemoryPort.choice, MemoryPort.refreshChoice_none hoverdue, MemoryPort.writerChoice, hwriters, MemoryPort.readerChoice,
    hreaders]

end

/-! ## The grant of the claim chosen (R150) -/

section
variable {s : State} (hidle : s.port.inFlight = none)
include hidle

theorem State.grant_none (h : s.port.choice s.out.urgent = none) : s.grant = s := by
  simp only [State.grant, hidle, h]

theorem State.grant_refresh (h : s.port.choice s.out.urgent = some .refresh) : s.grant =
    { s with port := { s.port with refresh := .absent, inFlight := some .refresh } } := by
  simp only [State.grant, hidle, h]

theorem State.grant_reader {r : ReaderBurst} {rest : List ReaderBurst} (h : s.port.choice s.out.urgent = some (.reader r rest)) :
    s.grant = { s with port := { s.port with readers := rest, inFlight := some (.reader r.slot r.line r.burst) } } := by
  simp only [State.grant, hidle, h]

theorem State.grant_writer {w : WriterLine} {rest : List WriterLine} (h : s.port.choice s.out.urgent = some (.writer w rest)) :
    s.grant = s.grantWriter w rest := by
  simp only [State.grant, hidle, h]

end

/-! ## The bytes and the buffer of a writer burst (R143, R145) -/

theorem freeBytes_length (start count : Nat) : (freeBytes start count).length = count := by simp [freeBytes]

/-- A burst that is not the line's last leaves its buffer WAITING, with one burst less to grant. -/
theorem InputPort.grantBurst_more {p : InputPort} {b : Nat} {x : LineBuffer} (hx : p.buffers[b]? = some x) :
    p.grantBurst b false = { p with buffers := p.buffers.set b { x with toGrant := x.toGrant - 1 } } := by
  obtain ⟨hlt, rfl⟩ := List.getElem?_eq_some_iff.1 hx
  rw [InputPort.grantBurst, List.modify_eq_set_get _ hlt]
  rfl

/-- The last burst of a line frees its buffer. -/
theorem InputPort.grantBurst_last (p : InputPort) (b : Nat) :
    p.grantBurst b true = { p with buffers := p.buffers.set b State.emptyBuffer } := by
  rw [InputPort.grantBurst, List.set_eq_modify]
  rfl

section
variable {s : State} {w : WriterLine}

theorem State.grantWriter_waiting {b : Nat} {x : LineBuffer} (hkept : .discard w.slot ∉ s.transit.toMemory)
    (hb : s.input.waitingBuffer w.slot w.line = some b) (hx : s.input.buffers[b]? = some x) (rest : List WriterLine) :
    s.grantWriter w rest = { s with
      port := { s.port with
        writers := if s.settings.bursts ≤ w.next + 1 then rest else { w with next := w.next + 1 } :: rest
        inFlight := some (.writer w.slot w.line w.next (burstBytes x.colours w.next) false) }
      input := s.input.grantBurst b (decide (s.settings.bursts ≤ w.next + 1)) } := by
  have hclaim : s.claimBuffer w = some b := by simp [State.claimBuffer, hkept, hb]
  simp only [State.grantWriter, hclaim, hx, Option.getD_some, decide_eq_true_eq]

theorem State.grantWriter_discarded (hgone : .discard w.slot ∈ s.transit.toMemory) (rest : List WriterLine) :
    s.grantWriter w rest = { s with
      port := { s.port with
        writers := if s.settings.bursts ≤ w.next + 1 then rest else { w with next := w.next + 1 } :: rest
        inFlight := some (.writer w.slot w.line w.next (freeBytes s.free 64) false) }
      free := s.free + 64 } := by
  have hclaim : s.claimBuffer w = none := by simp [State.claimBuffer, hgone]
  simp only [State.grantWriter, hclaim, decide_eq_true_eq]

end

/-- Settles O49: the claim that is first in the order of R150, and its grant. -/
theorem arbiterGrantsInOrder : Obligations.ArbiterGrantsInOrder := by
  intro s hidle
  refine ⟨fun hrefresh => ?_, fun hrefresh hurgent r rest hreaders => ?_,
    fun hrefresh hreaders w rest b x hwriters hb hx hkept => ?_, fun hrefresh hreaders w rest hwriters hgone => ?_,
    fun hrefresh hurgent hwriters r rest hreaders => ?_, fun hrefresh hwriters hreaders => ?_,
    fun hrefresh hwriters hreaders => ?_⟩
  · exact State.grant_refresh hidle (MemoryPort.choice_overdue hrefresh)
  · exact State.grant_reader hidle (hurgent ▸ MemoryPort.choice_urgent_reader hrefresh hreaders)
  · rw [State.grant_writer hidle (MemoryPort.choice_writer hrefresh hreaders hwriters),
      State.grantWriter_waiting hkept hb hx]
    refine ⟨fun hmore => ?_, fun hlast => ⟨State.emptyBuffer, rfl, ?_⟩⟩
    · have hnot : ¬s.settings.bursts ≤ w.next + 1 := Nat.not_le.2 hmore
      rw [if_neg hnot, decide_eq_false hnot, InputPort.grantBurst_more hx]
    · rw [if_pos hlast.ge, decide_eq_true hlast.ge, InputPort.grantBurst_last]
  · refine ⟨freeBytes s.free 64, freeBytes_length _ _, ?_⟩
    rw [State.grant_writer hidle (MemoryPort.choice_writer hrefresh hreaders hwriters), State.grantWriter_discarded hgone]
    simp only [← Nat.not_lt, ite_not]
  · exact State.grant_reader hidle (hurgent ▸ MemoryPort.choice_reader hrefresh hwriters hreaders)
  · have hoverdue : s.port.refresh ≠ .present true := by simp [hrefresh]
    exact State.grant_refresh hidle ((MemoryPort.choice_no_lines hoverdue hwriters hreaders).trans (if_pos hrefresh))
  · have habsent (overdue : Bool) : s.port.refresh ≠ .present overdue := by simp [hrefresh]
    exact State.grant_none hidle
      ((MemoryPort.choice_no_lines (habsent true) hwriters hreaders).trans (MemoryPort.refreshChoice_none (habsent false)))

end Sys2Proof.Machine
end

section
/-! The completion of a burst: what it delivers or writes, and the line that it reports (R121, R122, R147, R151). -/

namespace Sys2Proof.Machine

open Sys2Proof

/-! ## The end of the burst in flight (R147, R151) -/

theorem Settings.burstAddress_eq (c : Settings) (slot line burst : Nat) :
    c.burstAddress slot line burst = slot * (c.wh * c.pitch) + line * c.pitch + 64 * burst := by
  rw [Settings.burstAddress, Settings.slotSize, Nat.mul_comm burst]

section
variable {s : State} (hr : s.running = true)
include hr

theorem exec_burstCompletion_none (h : s.port.inFlight = none) : exec .burstCompletion s = .next s := by
  change execBurstCompletion s = .next s
  simp only [execBurstCompletion, hr, h, if_true]

theorem exec_burstCompletion_some {b : Burst} (h : s.port.inFlight = some b) (hin : b.inMemory s.settings = true) :
    exec .burstCompletion s = .next ((s.deliver b).endBurst).grant := by
  change execBurstCompletion s = .next ((s.deliver b).endBurst).grant
  simp only [execBurstCompletion, hr, h, hin, if_true]

end

/-- The bytes of a burst read back where it wrote them. -/
theorem ramRead_written {ram : List Host.Cell} {data : List Byte} (h : ramCanonical ram = true) (addr : Nat) {k : Nat}
    (hk : k < data.length) : data[k]? = some (ramRead (ramWriteBytes ram addr data) (addr + k)) := by
  rw [ramRead_ramWriteBytes addr _ data h, if_pos ⟨by omega, by omega⟩, Nat.add_sub_cancel_left, List.getElem?_eq_getElem hk]
  rfl

/-- Where no byte of the burst went, frame memory reads as before. -/
theorem ramRead_elsewhere {ram : List Host.Cell} (h : ramCanonical ram = true) {addr a : Nat} {data : List Byte}
    (ha : a < addr ∨ addr + data.length ≤ a) : ramRead (ramWriteBytes ram addr data) a = ramRead ram a := by
  rw [ramRead_ramWriteBytes addr _ data h, if_neg (by omega)]

/-! ## The report of a line (R121, R122) -/

section
variable {t : SlotTable} {slot line : Nat}

theorem SlotTable.lineWritten_not_next (h : ¬(t.fillingSlot = some slot ∧ (t.slot slot).linesWritten = line)) (wh : Nat) :
    t.lineWritten wh slot line = t := by
  rw [SlotTable.lineWritten_eq, if_neg h]

/-- The next line of the FILLING slot is counted, and the completion looked at. -/
theorem SlotTable.lineWritten_next (hslot : t.fillingSlot = some slot) (hline : (t.slot slot).linesWritten = line) (wh : Nat) :
    t.lineWritten wh slot line = (t.updateSlot slot fun r => { r with linesWritten := line + 1 }).completeIfDone wh := by
  have hcount : t.countLine slot = t.updateSlot slot fun r => { r with linesWritten := line + 1 } :=
    SlotTable.updateSlot_congr (f := fun r => { r with linesWritten := r.linesWritten + 1 }) (by rw [hline])
  rw [SlotTable.lineWritten_eq, if_pos ⟨hslot, hline⟩, hcount]

end

/-- Settles O50: the three kinds of burst, and the report of a writer's last. -/
theorem burstCompletionDelivers : Obligations.BurstCompletionDelivers := by
  intro s hr
  refine ⟨exec_burstCompletion_none hr, fun h => exec_burstCompletion_some hr h rfl, fun slot line burst addr haddr hfits => ?_⟩
  rw [← Settings.burstAddress_eq] at haddr
  subst haddr
  refine ⟨fun h => exec_burstCompletion_some hr h (decide_eq_true hfits), fun data drop hlength hram h => ?_⟩
  refine ⟨_, (s.deliver (.writer slot line burst data drop)).table, exec_burstCompletion_some hr h (decide_eq_true hfits),
    fun k hk => ramRead_written hram _ (hlength ▸ hk), fun a ha => ramRead_elsewhere hram (hlength ▸ ha), ?_,
    fun hkept hlast => ?_⟩
  · rintro (rfl | hmore)
    · exact s.deliver_dropped slot line burst data
    · exact if_neg fun hlast => Nat.not_lt.2 hlast.2 hmore
  · subst hkept
    rw [s.deliver_last slot line burst data hlast.ge]
    refine ⟨fun hother => SlotTable.lineWritten_not_next hother _, fun hslot hline => ?_⟩
    rw [SlotTable.lineWritten_next hslot hline]
    refine ⟨fun hopen => ?_, fun c hclosing hwh hc => ⟨fun hnewer => ?_, fun holder => ?_⟩⟩
    · refine SlotTable.updateSlot_completeIfDone_not hslot (fun _ => rfl) ?_
      rintro ⟨hclosing, hwh⟩
      rcases hopen with hopen | hshort
      · exact absurd hclosing (by simp [hopen])
      · exact hshort hwh
    · exact SlotTable.updateSlot_completes_ready hslot (fun _ => rfl) (fun _ => rfl) ⟨hclosing, hwh⟩ hc hnewer
    · exact SlotTable.updateSlot_completes_skipped hslot (fun _ => rfl) (fun _ => rfl) ⟨hclosing, hwh⟩ hc holder

end Sys2Proof.Machine
end

section
/-! The words that belong to no frame under reception: stray in IDLE, ignored in DRAINING, and the flags that directly follow a
FRAME_OPEN (R136, R140 to R142). -/

namespace Sys2Proof.Machine

open Sys2Proof

section
variable {s : State}

/-- A word that spells nothing, after the checker (R133, R139). -/
theorem State.controlWord_damaged {word : BitVec 24} (hdamaged : decodeControlWord word = .damagedControlWord word) (s : State) :
    s.controlWord word = s.damagedWord := by
  simp only [State.controlWord, hdamaged]

/-! ## IDLE (R136) -/

section
variable (hidle : s.input.state = .idle)
include hidle

theorem State.pixelWord_idle (colour : Colour) : s.pixelWord colour = s.strayWord := by
  simp only [State.pixelWord, hidle]

theorem State.lineOpen_idle (index : BitVec 16) : s.lineOpen index = s.strayWord := by
  simp only [State.lineOpen, hidle]

theorem State.frameClose_idle (count : BitVec 16) : s.frameClose count = s.strayWord := by
  simp only [State.frameClose, hidle]

theorem State.frameFlags_idle (payload : BitVec 16) : s.frameFlags payload = s.strayWord := by
  simp only [State.frameFlags, hidle]

theorem State.damagedWord_idle : s.damagedWord = s.strayWord := by
  simp only [State.damagedWord, hidle]

end

/-! ## DRAINING (R140) -/

section
variable (hdraining : s.input.state = .draining)
include hdraining

theorem State.pixelWord_draining (colour : Colour) : s.pixelWord colour = s.ignoreWord := by
  simp only [State.pixelWord, hdraining]

theorem State.lineOpen_draining (index : BitVec 16) : s.lineOpen index = s.ignoreWord := by
  simp only [State.lineOpen, hdraining]

/-- A FRAME_CLOSE ends the draining. -/
theorem State.frameClose_draining (count : BitVec 16) : s.frameClose count = { s with input := s.input.finish } := by
  simp only [State.frameClose, hdraining]

theorem State.frameFlags_draining (hwindow : s.input.window = false) (payload : BitVec 16) :
    s.frameFlags payload = s.ignoreWord := by
  simp [State.frameFlags, hdraining, hwindow]

theorem State.damagedWord_draining : s.damagedWord = s.ignoreWord := by
  simp only [State.damagedWord, hdraining]

end

/-! ## Flags with the window open (R141, R142) -/

theorem State.frameFlags_honoured (hstate : s.input.state ≠ .idle) (hwindow : s.input.window = true) (payload : BitVec 16) :
    s.frameFlags payload = s.honourFlags payload := by
  cases hs : s.input.state with
  | idle => exact absurd hs hstate
  | filling => simp [State.frameFlags, hs, hwindow]
  | draining => simp [State.frameFlags, hs, hwindow]

theorem flagsReport_eq (payload : BitVec 16) : flagsReport payload =
    if payload.getLsbD 0 = true ∧ payload.getLsbD 1 = false then some .leave
    else if payload.getLsbD 0 = false ∧ payload.getLsbD 1 = true then some .rejoin
    else none := by
  unfold flagsReport
  cases payload.getLsbD 0 <;> cases payload.getLsbD 1 <;> rfl

/-- Honoured flags shut the window and send the one report that they pass, if any. -/
theorem State.honourFlags_eq (s : State) (payload : BitVec 16) : s.honourFlags payload = { s with
    input := s.input.shut
    transit := { s.transit with toPclk := s.transit.toPclk ++ (flagsReport payload).toList } } := by
  unfold State.honourFlags
  cases flagsReport payload with
  | none => simp only [Option.toList_none, List.append_nil]
  | some report => rfl

end

/-- Settles O45: a stray word in IDLE, the end of the draining or an ignored word in DRAINING, and honoured flags. -/
theorem strayDrainedAndFlagWords : Obligations.StrayDrainedAndFlagWords := by
  intro s c hr hword
  refine ⟨fun hidle => ?_, fun hdraining n hc => ?_, fun hdraining hclose hflags => ?_, fun hstate hwindow payload hc => ?_⟩
  · change exec c s = .next s.strayWord
    rcases hword with ⟨colour, rfl⟩ | ⟨j, rfl⟩ | ⟨n, rfl⟩ | ⟨payload, rfl⟩ | ⟨word, rfl, hdamaged⟩
    · exact State.pixelWord_idle hidle colour ▸ exec_of_running hr rfl
    · exact State.lineOpen_idle hidle j ▸ exec_of_running hr rfl
    · exact State.frameClose_idle hidle n ▸ exec_of_running hr rfl
    · exact State.frameFlags_idle hidle payload ▸ exec_of_running hr rfl
    · rw [← State.damagedWord_idle hidle, ← s.controlWord_damaged (of_decide_eq_true hdamaged)]
      exact exec_of_running hr rfl
  · subst hc
    exact (exec_of_running hr rfl).trans (congrArg _ (State.frameClose_draining hdraining n))
  · change exec c s = .next s.ignoreWord
    rcases hword with ⟨colour, rfl⟩ | ⟨j, rfl⟩ | ⟨n, rfl⟩ | ⟨payload, rfl⟩ | ⟨word, rfl, hdamaged⟩
    · exact State.pixelWord_draining hdraining colour ▸ exec_of_running hr rfl
    · exact State.lineOpen_draining hdraining j ▸ exec_of_running hr rfl
    · exact absurd rfl (hclose n)
    · exact State.frameFlags_draining hdraining (hflags payload rfl) payload ▸ exec_of_running hr rfl
    · rw [← State.damagedWord_draining hdraining, ← s.controlWord_damaged (of_decide_eq_true hdamaged)]
      exact exec_of_running hr rfl
  · subst hc
    refine (exec_of_running hr rfl).trans (congrArg _ ?_)
    rw [State.frameFlags_honoured hstate hwindow, s.honourFlags_eq, flagsReport_eq]
    simp only [apply_ite Option.toList]
    rfl

end Sys2Proof.Machine
end

section
/-! The checker of the control words: the fields of a word, the register of R185 as a linear code, and what a word spells
(R133, R139, R185, Table 13-2). -/

namespace Sys2Proof.Machine

open Sys2Proof

/-! ## The protection register (R185) -/

/-- The feedback of one step: 0x3 or nothing. -/
def protectionFeedback (feedback : Bool) : BitVec 4 := if feedback then 0x3#4 else 0#4

theorem protectionFeedback_xor (a b : Bool) :
    protectionFeedback (a ^^ b) = protectionFeedback a ^^^ protectionFeedback b := by
  cases a <;> cases b <;> rfl

theorem protectionStep_eq (register : BitVec 4) (bit : Bool) :
    protectionStep register bit = register <<< 1 ^^^ protectionFeedback (register.msb ^^ bit) := by
  unfold protectionStep protectionFeedback
  split
  · rfl
  · rw [BitVec.xor_zero]

/-- A step is linear in the register and the bit. -/
theorem protectionStep_xor (r q : BitVec 4) (a b : Bool) :
    protectionStep (r ^^^ q) (a ^^ b) = protectionStep r a ^^^ protectionStep q b := by
  have hfeedback : ((r ^^^ q).msb ^^ (a ^^ b)) = ((r.msb ^^ a) ^^ (q.msb ^^ b)) := by
    rw [BitVec.msb_xor, Bool.xor_assoc, Bool.xor_assoc, Bool.xor_left_comm q.msb]
  simp only [protectionStep_eq, hfeedback, protectionFeedback_xor, BitVec.shiftLeft_xor_distrib]
  ac_rfl

theorem protectionFold_xor (f g : BitVec 20) (l : List Nat) (r q : BitVec 4) :
    l.foldl (fun register k => protectionStep register ((f ^^^ g).getMsbD k)) (r ^^^ q) =
      l.foldl (fun register k => protectionStep register (f.getMsbD k)) r ^^^
        l.foldl (fun register k => protectionStep register (g.getMsbD k)) q := by
  induction l generalizing r q with
  | nil => rfl
  | cons k l ih => rw [List.foldl_cons, BitVec.getMsbD_xor, protectionStep_xor, ih]; rfl

/-- The protection value is linear in the field it protects. -/
theorem protection_xor (f g : BitVec 20) : protection (f ^^^ g) = protection f ^^^ protection g :=
  protectionFold_xor f g (List.range 20) 0#4 0#4

/-- The register runs over bits 23 to 4 of the word, and feeds back where its top bit and the word's differ. -/
theorem protection_eq_foldl (word : BitVec 24) : protection (word.extractLsb' 4 20) =
    (List.range 20).foldl (fun (value : BitVec 4) (k : Nat) =>
      if value.getLsbD 3 = word.getLsbD (23 - k) then value <<< 1 else (value <<< 1) ^^^ 0x3#4) 0#4 := by
  refine List.foldl_ext _ _ _ fun value k hk => ?_
  have hlt : k < 20 := List.mem_range.1 hk
  have hbit : (word.extractLsb' 4 20).getMsbD k = word.getLsbD (23 - k) := by
    rw [BitVec.getMsbD_eq_getLsbD, BitVec.getLsbD_extractLsb', show 4 + (20 - 1 - k) = 23 - k by omega]
    simp [hlt, show 19 - k < 20 by omega]
  rw [hbit, protectionStep, BitVec.msb_eq_getLsbD_last]
  cases value.getLsbD 3 <;> cases word.getLsbD (23 - k) <;> rfl

/-! ## The fields of a control word (Table 13-2) -/

theorem controlWord_field (kind : BitVec 4) (payload : BitVec 16) :
    (controlWord kind payload).extractLsb' 4 20 = kind ++ payload :=
  BitVec.extractLsb'_append_eq_left

theorem controlWord_kind (kind : BitVec 4) (payload : BitVec 16) : (controlWord kind payload).extractLsb' 20 4 = kind := by
  apply BitVec.eq_of_toNat_eq
  rw [BitVec.extractLsb'_toNat, controlWord_toNat, Nat.shiftRight_eq_div_pow]
  omega

theorem controlWord_payload (kind : BitVec 4) (payload : BitVec 16) :
    (controlWord kind payload).extractLsb' 4 16 = payload := by
  apply BitVec.eq_of_toNat_eq
  rw [BitVec.extractLsb'_toNat, controlWord_toNat, Nat.shiftRight_eq_div_pow]
  omega

theorem controlWord_protection (kind : BitVec 4) (payload : BitVec 16) :
    (controlWord kind payload).extractLsb' 0 4 = protection (kind ++ payload : BitVec 20) :=
  BitVec.extractLsb'_append_eq_right

/-! ## One bit inverted (R139, R185) -/

/-- What the protection value of a word and the register over its field differ by. -/
def syndrome (word : BitVec 24) : BitVec 4 := protection (word.extractLsb' 4 20) ^^^ word.extractLsb' 0 4

theorem syndrome_eq_zero_iff (word : BitVec 24) :
    syndrome word = 0#4 ↔ word.extractLsb' 0 4 = protection (word.extractLsb' 4 20) :=
  BitVec.xor_eq_zero_iff.trans eq_comm

theorem syndrome_xor (v w : BitVec 24) : syndrome (v ^^^ w) = syndrome v ^^^ syndrome w := by
  simp only [syndrome, BitVec.extractLsb'_xor, protection_xor]
  ac_rfl

theorem syndrome_controlWord (kind : BitVec 4) (payload : BitVec 16) : syndrome (controlWord kind payload) = 0#4 := by
  rw [syndrome_eq_zero_iff, controlWord_protection, controlWord_field]

/-- No single bit stands alone in a word of the code. -/
theorem syndrome_bit : ∀ k < 24, syndrome (1#24 <<< k) ≠ 0#4 := by decide +kernel

theorem syndrome_controlWord_bit (kind : BitVec 4) (payload : BitVec 16) {k : Nat} (hk : k < 24) :
    syndrome (controlWord kind payload ^^^ (1#24 <<< k)) ≠ 0#4 := by
  rw [syndrome_xor, syndrome_controlWord, BitVec.zero_xor]
  exact syndrome_bit k hk

/-! ## What a word spells (R133) -/

section
variable {word : BitVec 24}

/-- A word of another protection value is damaged. -/
theorem decodeControlWord_of_syndrome (h : syndrome word ≠ 0#4) : decodeControlWord word = .damagedControlWord word :=
  if_pos fun heq => h ((syndrome_eq_zero_iff word).2 heq.symm)

/-- A word of the right protection value spells what its type says. -/
theorem decodeControlWord_by_kind (h : syndrome word = 0#4) : decodeControlWord word =
    if word.extractLsb' 20 4 = typeFrameOpen then .frameOpen (word.extractLsb' 4 16)
    else if word.extractLsb' 20 4 = typeFrameFlags then .frameFlags (word.extractLsb' 4 16)
    else if word.extractLsb' 20 4 = typeLineOpen then .lineOpen (word.extractLsb' 4 16)
    else if word.extractLsb' 20 4 = typeFrameClose then .frameClose (word.extractLsb' 4 16)
    else .damagedControlWord word :=
  if_neg (not_not.2 ((syndrome_eq_zero_iff word).1 h).symm)

theorem decodeControlWord_unknown (h : syndrome word = 0#4)
    (hkind : word.extractLsb' 20 4 = 0#4 ∨ 5 ≤ (word.extractLsb' 20 4).toNat) :
    decodeControlWord word = .damagedControlWord word := by
  have hother (type : BitVec 4) (hfrom : type ≠ 0#4) (hto : type.toNat < 5) : word.extractLsb' 20 4 ≠ type := by
    rintro rfl
    exact hkind.elim hfrom (Nat.not_le.2 hto)
  rw [decodeControlWord_by_kind h, if_neg (hother _ (by decide) (by decide)), if_neg (hother _ (by decide) (by decide)),
    if_neg (hother _ (by decide) (by decide)), if_neg (hother _ (by decide) (by decide))]

end

/-- A control word spells one of the four commands, or nothing. -/
theorem decodeControlWord_cases (word : BitVec 24) :
    (∃ content, decodeControlWord word = .frameOpen content) ∨ (∃ payload, decodeControlWord word = .frameFlags payload) ∨
    (∃ index, decodeControlWord word = .lineOpen index) ∨ (∃ count, decodeControlWord word = .frameClose count) ∨
    decodeControlWord word = .damagedControlWord word := by
  by_cases h : syndrome word = 0#4
  · rw [decodeControlWord_by_kind h]
    split_ifs <;> simp
  · simp [decodeControlWord_of_syndrome h]

/-- The word of a type and a payload spells the command of the type, with the payload as its operand. -/
theorem decodeControlWord_controlWord (kind : BitVec 4) (payload : BitVec 16) :
    decodeControlWord (controlWord kind payload) =
      if kind = typeFrameOpen then .frameOpen payload
      else if kind = typeFrameFlags then .frameFlags payload
      else if kind = typeLineOpen then .lineOpen payload
      else if kind = typeFrameClose then .frameClose payload
      else .damagedControlWord (controlWord kind payload) := by
  rw [decodeControlWord_by_kind (syndrome_controlWord kind payload), controlWord_kind, controlWord_payload]

/-- A command of the port reads back from its word. -/
theorem decodeInputWord_encodeInputWord {c : Instr} {ictl : Bool} {idat : BitVec 24} (hwf : c.wellFormed = true)
    (hword : encodeInputWord c = some (ictl, idat)) : decodeInputWord ictl idat = c := by
  unfold encodeInputWord at hword
  split at hword
  case h_1 content => cases hword; exact decodeControlWord_controlWord typeFrameOpen content
  case h_2 payload => cases hword; exact decodeControlWord_controlWord typeFrameFlags payload
  case h_3 index => cases hword; exact decodeControlWord_controlWord typeLineOpen index
  case h_4 count => cases hword; exact decodeControlWord_controlWord typeFrameClose count
  case h_5 word => cases hword; exact of_decide_eq_true hwf
  case h_6 colour => cases hword; rfl
  case h_7 => cases hword

/-! ## The word as a command (R133; logs 19, 20) -/

/-- DAMAGED_CONTROL_WORD does what the word that it carries spells. -/
theorem exec_damagedControlWord (s : State) (word : BitVec 24) :
    exec (.damagedControlWord word) s = exec (decodeControlWord word) s := by
  have hexec : exec (.damagedControlWord word) s = .next (s.whenRunning (s.controlWord word)) := rfl
  obtain ⟨content, h⟩ | ⟨payload, h⟩ | ⟨index, h⟩ | ⟨count, h⟩ | h := decodeControlWord_cases word
  · rw [hexec, State.controlWord, h]; rfl
  · rw [hexec, State.controlWord, h]; rfl
  · rw [hexec, State.controlWord, h]; rfl
  · rw [hexec, State.controlWord, h]; rfl
  · rw [h]

theorem decodeTableWord_toNat (word : BitVec 24) : decodeTableWord 24 word.toNat = some (decodeInputWord true word) := by
  rw [decodeTableWord, if_pos rfl, BitVec.ofNat_toNat, BitVec.setWidth_eq]

theorem step_withFetchWord (s : State) (word : BitVec 24) :
    step (s.withFetchWord 24 word.toNat) = exec (decodeInputWord true word) s := by
  rw [State.withFetchWord, decodeTableWord_toNat]
  rfl

/-- Settles O46: the fields, the spelling by type, and the linear code of R185. -/
theorem controlWordsReadBack : Obligations.ControlWordsReadBack := by
  refine ⟨fun register hregister => ?_, fun word => ⟨rfl, rfl⟩, fun c ictl idat => decodeInputWord_encodeInputWord,
    fun kind payload k hk => decodeControlWord_of_syndrome (syndrome_controlWord_bit kind payload hk), fun s ictl idat => rfl,
    exec_damagedControlWord, fun s word => ⟨decodeTableWord_toNat word, step_withFetchWord s word⟩⟩
  have hprotection (word : BitVec 24) : register word = protection (word.extractLsb' 4 20) :=
    (hregister word).trans (protection_eq_foldl word).symm
  refine ⟨?_, fun payload => ⟨rfl, rfl, rfl, rfl⟩, ?_⟩
  · rintro kind payload word rfl
    rw [hprotection, controlWord_field]
    exact ⟨controlWord_kind kind payload, controlWord_payload kind payload, controlWord_protection kind payload⟩
  · rintro word kind payload rfl rfl
    rw [hprotection]
    refine ⟨fun hdiffers => decodeControlWord_of_syndrome (mt (syndrome_eq_zero_iff word).1 hdiffers), fun hprotected => ?_⟩
    have h := (syndrome_eq_zero_iff word).2 hprotected
    have hspells : decodeInputWord true word = _ := decodeControlWord_by_kind h
    exact ⟨fun hkind => by rw [hspells, hkind]; rfl, fun hkind => by rw [hspells, hkind]; rfl,
      fun hkind => by rw [hspells, hkind]; rfl, fun hkind => by rw [hspells, hkind]; rfl, decodeControlWord_unknown h⟩

end Sys2Proof.Machine
end

section
/-! What reaches the Memory Port and the other blocks: the next on its way has its effect, and anything else none (R142); the
claims join their lanes or are granted, and a discard or a withdrawal removes claims (R143, R145, R149, R150, R152, R153). -/

namespace Sys2Proof.Machine

open Sys2Proof

/-! ## The next on its way (R142; log 9) -/

theorem exec_of_next {c : Instr} {s u : State} {next : Bool} (hr : s.running = true)
    (hx : exec c s = .next (s.whenRunning (s.whenNext next u))) (hnext : next = true) : exec c s = .next u := by
  rw [exec_of_running hr hx, hnext, State.whenNext_true]

theorem exec_of_not_next {c : Instr} {s u : State} {next : Bool}
    (hx : exec c s = .next (s.whenRunning (s.whenNext next u))) (hnext : ¬next = true) : exec c s = .next s := by
  rw [hx, eq_false_of_ne_true hnext, State.whenNext_false, State.whenRunning, ite_self]

theorem Transit.takeMemory_eq {t : Transit} {m : MemoryItem} {rest : List MemoryItem} (h : t.toMemory = m :: rest) :
    t.takeMemory = { t with toMemory := rest } := by
  rw [Transit.takeMemory, h, List.tail_cons]

theorem Transit.takeReader_eq {t : Transit} {m : ReaderMessage} {rest : List ReaderMessage} (h : t.readerItems = m :: rest) :
    t.takeReader = { t with readerItems := rest } := by
  rw [Transit.takeReader, h, List.tail_cons]

/-- A line start is overdue when a refresh claim waits already. -/
theorem MemoryPort.claimRefresh_eq (p : MemoryPort) :
    p.claimRefresh = { p with refresh := .present (decide (p.refresh ≠ .absent)) } := by
  unfold MemoryPort.claimRefresh
  cases p.refresh <;> rfl

/-! ## The five arrivals at the Memory Port (R149, R152, R153) -/

section
variable {s : State} (hr : s.running = true)
include hr

theorem exec_refreshClaim_next (h : s.transit.refreshes ≠ 0) : exec .refreshClaim s = .next ({ s with
    transit := { s.transit with refreshes := s.transit.refreshes - 1 }
    port := { s.port with refresh := .present (decide (s.port.refresh ≠ .absent)) } } : State).grant := by
  rw [← s.port.claimRefresh_eq]
  exact exec_of_next hr rfl (s.transit.nextRefresh_iff.2 h)

theorem exec_writerClaim_next {slot line : Nat} {rest : List MemoryItem}
    (h : s.transit.toMemory = .writerLine slot line :: rest) : exec (.writerClaim slot line) s = .next ({ s with
      transit := { s.transit with toMemory := rest }
      port := s.port.claimWriter slot line } : State).grant := by
  rw [← Transit.takeMemory_eq h]
  exact exec_of_next hr rfl ((s.transit.nextMemory_iff _).2 (by rw [h, List.head?_cons]))

theorem exec_readerClaim_next {item : ReaderItem} {rest : List ReaderMessage}
    (h : s.transit.readerItems = .item item :: rest) : exec (.readerClaim item) s = .next ({ s with
      transit := { s.transit with readerItems := rest }
      port := s.port.claimReader s.settings.bursts item } : State).grant := by
  rw [← Transit.takeReader_eq h]
  exact exec_of_next hr rfl ((s.transit.nextReader_iff _).2 (by rw [h, List.head?_cons]))

theorem exec_memoryDiscard_next {slot : Nat} {rest : List MemoryItem} (h : s.transit.toMemory = .discard slot :: rest) :
    exec (.memoryDiscard slot) s = .next { s with
      transit := { s.transit with toMemory := rest }
      port := s.port.discard slot } := by
  rw [← Transit.takeMemory_eq h]
  exact exec_of_next hr rfl ((s.transit.nextMemory_iff _).2 (by rw [h, List.head?_cons]))

theorem exec_readerWithdrawal_next {line : Nat} {rest : List ReaderMessage}
    (h : s.transit.readerItems = .withdraw line :: rest) : exec (.readerWithdrawal line) s = .next { s with
      transit := { s.transit with readerItems := rest }
      port := s.port.withdraw line } := by
  rw [← Transit.takeReader_eq h]
  exact exec_of_next hr rfl ((s.transit.nextReader_iff _).2 (by rw [h, List.head?_cons]))

end

/-! ## The bursts of a line (R149) and its buffer (R143) -/

theorem lineBursts_cons (slot line : Nat) {bursts : Nat} (h : 1 ≤ bursts) : lineBursts slot line bursts =
    ⟨slot, line, 0⟩ :: (List.range (bursts - 1)).map (fun b => ⟨slot, line, b + 1⟩) := by
  obtain ⟨n, rfl⟩ := Nat.exists_eq_add_of_le' h
  rw [lineBursts, List.range_succ_eq_map, List.map_cons, List.map_map]
  rfl

theorem InputPort.waitingBuffer_eq {p : InputPort} {slot line b : Nat} {x : LineBuffer} (hx : p.buffers[b]? = some x)
    (hwaits : x.state = .waiting ∧ x.slot = slot ∧ x.line = line)
    (hbelow : ∀ k < b, ∀ y, p.buffers[k]? = some y → ¬(y.state = .waiting ∧ y.slot = slot ∧ y.line = line)) :
    p.waitingBuffer slot line = some b := by
  obtain ⟨hlt, rfl⟩ := List.getElem?_eq_some_iff.1 hx
  refine List.findIdx?_eq_some_iff_getElem.2 ⟨hlt, decide_eq_true hwaits, fun k hk => ?_⟩
  simpa using hbelow k hk _ (List.getElem?_eq_getElem (hk.trans hlt))

/-! ## The bus, busy or idle (R150) -/

/-- While a burst is in flight nothing is granted. -/
theorem State.grant_busy {s : State} {b : Burst} (h : s.port.inFlight = some b) : s.grant = s := by
  simp only [State.grant, h]

/-- A claim alone on an idle bus is the one chosen, urgent or not. -/
theorem MemoryPort.choice_only_refresh (urgent : Bool) :
    (⟨.present false, [], [], none⟩ : MemoryPort).choice urgent = some .refresh :=
  (MemoryPort.choice_no_lines (by simp) rfl rfl).trans (if_pos rfl)

theorem MemoryPort.choice_only_readers (urgent : Bool) (r : ReaderBurst) (rest : List ReaderBurst) :
    (⟨.absent, r :: rest, [], none⟩ : MemoryPort).choice urgent = some (.reader r rest) := by
  cases urgent with
  | true => exact MemoryPort.choice_urgent_reader (by simp) rfl
  | false => exact MemoryPort.choice_reader (by simp) rfl rfl

theorem MemoryPort.choice_only_writers (urgent : Bool) (w : WriterLine) (rest : List WriterLine) :
    (⟨.absent, [], w :: rest, none⟩ : MemoryPort).choice urgent = some (.writer w rest) :=
  MemoryPort.choice_writer (by simp) (Or.inr rfl) rfl

theorem MemoryPort.choice_no_claims (urgent : Bool) : (⟨.absent, [], [], none⟩ : MemoryPort).choice urgent = none :=
  (MemoryPort.choice_no_lines (by simp) rfl rfl).trans (if_neg (by simp))

/-! ## The first claim on an idle bus (R150) -/

section
variable {s : State} (hr : s.running = true) (hport : s.port = ⟨.absent, [], [], none⟩)
include hr hport

/-- A frame start finds no reader claim to remove, and nothing to grant. -/
theorem exec_frameStart_idle {rest : List ReaderMessage} (hnext : s.transit.readerItems = .item .frameStart :: rest) :
    exec (.readerClaim .frameStart) s = .next { s with transit := { s.transit with readerItems := rest } } := by
  have hclaim : s.port.claimReader s.settings.bursts .frameStart = ⟨.absent, [], [], none⟩ := by rw [hport]; rfl
  rw [exec_readerClaim_next hr hnext, hclaim, State.grant_none rfl (MemoryPort.choice_no_claims _), ← hport]

theorem exec_refreshClaim_idle (hnext : s.transit.refreshes ≠ 0) : exec .refreshClaim s = .next { s with
    transit := { s.transit with refreshes := s.transit.refreshes - 1 }
    port := ⟨.absent, [], [], some .refresh⟩ } := by
  rw [exec_refreshClaim_next hr hnext, hport]
  exact congrArg _ (State.grant_refresh rfl (MemoryPort.choice_only_refresh _))

/-- The bursts of a line, the first of them granted. -/
theorem exec_readerClaim_idle {slot line : Nat} {rest : List ReaderMessage}
    (hnext : s.transit.readerItems = .item (.claims slot line) :: rest) (hbursts : 1 ≤ s.settings.bursts) :
    exec (.readerClaim (.claims slot line)) s = .next { s with
      transit := { s.transit with readerItems := rest }
      port := ⟨.absent, (List.range (s.settings.bursts - 1)).map (fun b => ⟨slot, line, b + 1⟩), [],
        some (.reader slot line 0)⟩ } := by
  have hclaim : s.port.claimReader s.settings.bursts (.claims slot line) =
      ⟨.absent, lineBursts slot line s.settings.bursts, [], none⟩ := by rw [hport]; rfl
  rw [exec_readerClaim_next hr hnext, hclaim, lineBursts_cons slot line hbursts,
    State.grant_reader rfl (MemoryPort.choice_only_readers _ _ _)]

theorem exec_writerClaim_idle {slot line : Nat} {rest : List MemoryItem}
    (hnext : s.transit.toMemory = .writerLine slot line :: rest) : exec (.writerClaim slot line) s = .next
      (({ s with
        transit := { s.transit with toMemory := rest }
        port := ⟨.absent, [], [⟨slot, line, 0⟩], none⟩ } : State).grantWriter ⟨slot, line, 0⟩ []) := by
  have hclaim : s.port.claimWriter slot line = ⟨.absent, [], [⟨slot, line, 0⟩], none⟩ := by rw [hport]; rfl
  rw [exec_writerClaim_next hr hnext, hclaim, State.grant_writer rfl (MemoryPort.choice_only_writers _ _ _)]

/-- The first burst of a finished line, from its buffer. -/
theorem exec_writerClaim_waiting {slot line b : Nat} {x : LineBuffer} {rest : List MemoryItem}
    (hnext : s.transit.toMemory = .writerLine slot line :: rest) (hkept : .discard slot ∉ rest)
    (hb : s.input.waitingBuffer slot line = some b) (hx : s.input.buffers[b]? = some x) :
    exec (.writerClaim slot line) s = .next { s with
      transit := { s.transit with toMemory := rest }
      port := ⟨.absent, [], if s.settings.bursts ≤ 1 then [] else [⟨slot, line, 1⟩],
        some (.writer slot line 0 (burstBytes x.colours 0) false)⟩
      input := s.input.grantBurst b (decide (s.settings.bursts ≤ 1)) } := by
  refine (exec_writerClaim_idle hr hport hnext).trans (congrArg _ ?_)
  exact State.grantWriter_waiting (by exact hkept) (by exact hb) (by exact hx) []

/-- The first burst of a line whose frame has been discarded. -/
theorem exec_writerClaim_discarded {slot line : Nat} {rest : List MemoryItem}
    (hnext : s.transit.toMemory = .writerLine slot line :: rest) (hgone : .discard slot ∈ rest) :
    exec (.writerClaim slot line) s = .next { s with
      transit := { s.transit with toMemory := rest }
      port := ⟨.absent, [], if s.settings.bursts ≤ 1 then [] else [⟨slot, line, 1⟩],
        some (.writer slot line 0 (freeBytes s.free 64) false)⟩
      free := s.free + 64 } := by
  refine (exec_writerClaim_idle hr hport hnext).trans (congrArg _ ?_)
  exact State.grantWriter_discarded (by exact hgone) []

end

/-- Settles O48: each claim on a busy bus, and each on an idle one. -/
theorem claimsJoinTheirLanes : Obligations.ClaimsJoinTheirLanes := by
  intro s slot line hr
  refine ⟨fun b hbusy => ⟨fun hnext => ?_, fun rest hnext => ?_, fun rest hnext => ?_, fun rest hnext => ?_⟩,
    fun hport => ⟨fun rest => exec_frameStart_idle hr hport, exec_refreshClaim_idle hr hport,
      fun rest => exec_readerClaim_idle hr hport, fun b x rest hnext hkept hx hwaits hbelow => ?_,
      fun rest hnext hgone => ⟨freeBytes s.free 64, freeBytes_length _ _, ?_⟩⟩⟩
  · exact (exec_refreshClaim_next hr hnext).trans (congrArg _ (State.grant_busy hbusy))
  · exact (exec_writerClaim_next hr hnext).trans (congrArg _ (State.grant_busy hbusy))
  · exact (exec_readerClaim_next hr hnext).trans (congrArg _ (State.grant_busy hbusy))
  · exact (exec_readerClaim_next hr hnext).trans (congrArg _ (State.grant_busy hbusy))
  · rw [exec_writerClaim_waiting hr hport hnext hkept (InputPort.waitingBuffer_eq hx hwaits hbelow) hx]
    refine ⟨fun hmore => ?_, fun hlast => ⟨State.emptyBuffer, rfl, rfl, ?_⟩⟩
    · have hnot : ¬s.settings.bursts ≤ 1 := Nat.not_le.2 hmore
      rw [if_neg hnot, decide_eq_false hnot, InputPort.grantBurst_more hx]
    · rw [if_pos hlast.le, decide_eq_true hlast.le, InputPort.grantBurst_last]
  · rw [exec_writerClaim_discarded hr hport hnext hgone, ← ite_not]
    simp only [Nat.not_le]
    rfl

/-! ## Discards (R152) -/

theorem Burst.dropIfOf_own (slot line burst : Nat) (data : List Byte) (drop : Bool) :
    (Burst.writer slot line burst data drop).dropIfOf slot = .writer slot line burst data true := by
  simp [Burst.dropIfOf]

/-- A burst of another slot, a reader's and a refresh take no mark. -/
theorem Burst.dropIfOf_other {b : Burst} {slot : Nat} (h : ∀ line burst data drop, b ≠ .writer slot line burst data drop) :
    b.dropIfOf slot = b := by
  cases b with
  | refresh => rfl
  | reader => rfl
  | writer own line burst data drop =>
    have hother : own ≠ slot := by rintro rfl; exact h line burst data drop rfl
    simp [Burst.dropIfOf, hother]

/-- Settles O51: a discard, a withdrawal, and each command that finds something else on its way. -/
theorem discardsAndWithdrawalsEmptyTheLanes : Obligations.DiscardsAndWithdrawalsEmptyTheLanes := by
  intro s slot line hr
  refine ⟨fun rest hnext => ⟨_, exec_memoryDiscard_next hr hnext, rfl, fun l n data drop hown => ?_, fun hother => ?_⟩,
    fun rest hnext => exec_readerWithdrawal_next hr hnext,
    fun h => exec_of_not_next rfl (mt (s.transit.nextReport_iff _).1 h),
    fun h => exec_of_not_next rfl (mt (s.transit.nextReport_iff _).1 h),
    fun h => exec_of_not_next rfl (mt (s.transit.nextReport_iff _).1 h),
    fun h => exec_of_not_next rfl (mt s.transit.nextRefresh_iff.1 (not_not.2 h)),
    fun h => exec_of_not_next rfl (mt (s.transit.nextMemory_iff _).1 h),
    fun h => exec_of_not_next rfl (mt (s.transit.nextMemory_iff _).1 h),
    fun item h => exec_of_not_next rfl (mt (s.transit.nextReader_iff _).1 h),
    fun h => exec_of_not_next rfl (mt (s.transit.nextReader_iff _).1 h),
    fun d h => exec_of_not_next rfl (mt (s.transit.nextRead_iff _).1 h)⟩
  · change s.port.inFlight.map _ = _
    rw [hown, Option.map_some, Burst.dropIfOf_own]
  · change s.port.inFlight.map _ = _
    cases hflight : s.port.inFlight with
    | none => rfl
    | some b =>
      rw [Option.map_some, Burst.dropIfOf_other]
      rintro l n data drop rfl
      exact hother ⟨l, n, data, drop, hflight⟩

end Sys2Proof.Machine
end

section
/-! The bus, urgent and frame memory: a grant leaves no claim waiting on an idle bus (R150), every operation of the Output Pipe
settles urgent (R160), and each part's own operations keep its part (R147 to R153, R157 to R162; log 7). -/

namespace Sys2Proof.Machine

open Sys2Proof

/-! ## The bus (R150) -/

/-- No claim waits while the bus is idle. -/
def MemoryPort.Served (p : MemoryPort) : Prop :=
  p.inFlight = none → p.refresh = .absent ∧ p.readers = [] ∧ p.writers = []

theorem MemoryPort.served_of_burst {p : MemoryPort} {b : Burst} (h : p.inFlight = some b) : p.Served := by
  intro hidle
  rw [h] at hidle
  cases hidle

/-- The arbiter passes over no claim: where it chooses none, none waits. -/
theorem MemoryPort.no_claims_of_choice_none {p : MemoryPort} {urgent : Bool} (h : p.choice urgent = none) :
    p.refresh = .absent ∧ p.readers = [] ∧ p.writers = [] := by
  have hoverdue : p.refresh ≠ .present true := fun hp => by simp [MemoryPort.choice_overdue hp] at h
  have hreaders : p.readers = [] := by
    cases hr : p.readers with
    | nil => rfl
    | cons r rest =>
      cases urgent with
      | true => simp [MemoryPort.choice_urgent_reader hoverdue hr] at h
      | false =>
        cases hw : p.writers with
        | nil => simp [MemoryPort.choice_reader hoverdue hw hr] at h
        | cons w more => simp [MemoryPort.choice_writer hoverdue (Or.inl rfl) hw] at h
  have hwriters : p.writers = [] := by
    cases hw : p.writers with
    | nil => rfl
    | cons w rest => simp [MemoryPort.choice_writer hoverdue (Or.inr hreaders) hw] at h
  rw [MemoryPort.choice_no_lines hoverdue hwriters hreaders] at h
  refine ⟨?_, hreaders, hwriters⟩
  cases hrefresh : p.refresh with
  | absent => rfl
  | present overdue =>
    cases overdue with
    | true => exact absurd hrefresh hoverdue
    | false => simp [MemoryPort.refreshChoice, hrefresh] at h

theorem State.grantWriter_burst (s : State) (w : WriterLine) (rest : List WriterLine) :
    ∃ b, (s.grantWriter w rest).port.inFlight = some b := by
  unfold State.grantWriter
  dsimp only
  split <;> exact ⟨_, rfl⟩

/-- After a grant decision the bus carries a burst or no claim waits, whatever stood before it (R150). -/
theorem State.grant_served (s : State) : s.grant.port.Served := by
  cases hflight : s.port.inFlight with
  | some b =>
    rw [State.grant_busy hflight]
    exact MemoryPort.served_of_burst hflight
  | none =>
    cases hchoice : s.port.choice s.out.urgent with
    | none =>
      rw [State.grant_none hflight hchoice]
      exact fun _ => MemoryPort.no_claims_of_choice_none hchoice
    | some claim =>
      cases claim with
      | refresh =>
        rw [State.grant_refresh hflight hchoice]
        exact MemoryPort.served_of_burst rfl
      | reader r rest =>
        rw [State.grant_reader hflight hchoice]
        exact MemoryPort.served_of_burst rfl
      | writer w rest =>
        rw [State.grant_writer hflight hchoice]
        obtain ⟨b, hb⟩ := s.grantWriter_burst w rest
        exact MemoryPort.served_of_burst hb

/-- A discard takes claims away and keeps the burst in flight (R152). -/
theorem MemoryPort.discard_served {p : MemoryPort} (h : p.Served) (slot : Nat) : (p.discard slot).Served := by
  intro hidle
  obtain ⟨hrefresh, hreaders, hwriters⟩ := h (Option.map_eq_none_iff.1 hidle)
  exact ⟨hrefresh, hreaders, by rw [MemoryPort.discard, hwriters, List.filter_nil]⟩

/-- A withdrawal takes claims away and keeps the burst in flight (R153). -/
theorem MemoryPort.withdraw_served {p : MemoryPort} (h : p.Served) (line : Nat) : (p.withdraw line).Served := by
  intro hidle
  obtain ⟨hrefresh, hreaders, hwriters⟩ := h hidle
  exact ⟨hrefresh, by rw [MemoryPort.withdraw, hreaders, List.filter_nil], hwriters⟩

/-! ## Urgent (R160) -/

/-- Urgent stands as its condition does. -/
def State.UrgentSettled (s : State) : Prop :=
  s.out.urgent = s.out.urgentCondition s.settings.wh s.settings.bursts

section
variable {s : State}

theorem State.UrgentSettled.congr {t : State} (h : s.UrgentSettled) (hout : t.out = s.out)
    (hsettings : t.settings = s.settings) : t.UrgentSettled := by
  unfold State.UrgentSettled
  rw [hout, hsettings]
  exact h

/-- What posts an event and moves the Timebase leaves urgent and its condition as they are. -/
theorem State.UrgentSettled.of_event (h : s.UrgentSettled) (e : Event) (tb : Timebase) :
    ({ s.postEvent e with tb := tb } : State).UrgentSettled := h.congr rfl rfl

theorem State.settleUrgent_settled (s : State) : s.settleUrgent.UrgentSettled := rfl

theorem State.latchFrame_settled (s : State) : s.latchFrame.UrgentSettled := State.settleUrgent_settled _

theorem State.endImageLine_settled (s : State) (j : Nat) : (s.endImageLine j).UrgentSettled := State.settleUrgent_settled _

theorem State.dueColumn_settled (h : s.UrgentSettled) (j p : Nat) : (s.dueColumn j p).UrgentSettled := by
  unfold State.dueColumn
  split
  · exact State.settleUrgent_settled _
  · exact h

/-! ### Frame starts and edges (R157, R158) -/

theorem State.frameStart_settled (s : State) (cause : FrameCause) (ended : TimebaseState) :
    (s.frameStart cause ended).UrgentSettled := State.latchFrame_settled _

theorem State.naturalFrameStart_settled (h : s.UrgentSettled) : s.naturalFrameStart.UrgentSettled := by
  unfold State.naturalFrameStart
  split
  · exact h
  · exact s.frameStart_settled _ _

theorem State.frameStartWhen_settled (h : s.UrgentSettled) (met : Bool) : (s.frameStartWhen met).UrgentSettled := by
  unfold State.frameStartWhen
  split
  · exact State.naturalFrameStart_settled h
  · exact h

theorem State.reload_settled (s : State) (track : Bool) : (s.reload track).UrgentSettled := State.frameStart_settled _ _ _

theorem State.seekEdge_settled (h : s.UrgentSettled) (ln px : Nat) : (s.seekEdge ln px).UrgentSettled := by
  unfold State.seekEdge
  dsimp only
  split
  · exact h
  · exact State.reload_settled _ _

theorem State.strayEdge_settled (h : s.UrgentSettled) (ln px : Nat) : (s.strayEdge ln px).UrgentSettled := by
  unfold State.strayEdge
  split
  · exact h
  · exact State.reload_settled _ _

theorem State.trackingEdge_settled (h : s.UrgentSettled) (ln px : Nat) : (s.trackingEdge ln px).UrgentSettled := by
  unfold State.trackingEdge
  split
  · exact h
  · exact State.reload_settled _ _
  · exact State.strayEdge_settled h ln px
  · exact h

theorem State.edgeHere_settled (h : s.UrgentSettled) : s.edgeHere.UrgentSettled := by
  unfold State.edgeHere
  repeat' split
  · exact h.congr (by simp) (by simp)
  · exact State.seekEdge_settled h _ _
  · exact State.trackingEdge_settled h _ _

theorem State.edgeBeforeWrap_settled (h : s.UrgentSettled) : s.edgeBeforeWrap.UrgentSettled := by
  unfold State.edgeBeforeWrap
  dsimp only
  split
  · exact (State.reload_settled _ true).of_event _ _
  · exact h

theorem State.takeEdge_settled (h : s.UrgentSettled) (time : EdgeTime) : (s.takeEdge time).UrgentSettled := by
  cases time with
  | pixel ln px => exact State.edgeHere_settled h
  | wrap => exact State.edgeBeforeWrap_settled h

/-! ### The panel (R158 to R162) -/

theorem State.imageLineStart_settled (h : s.UrgentSettled) (line : Nat) : (s.imageLineStart line).UrgentSettled := by
  unfold State.imageLineStart
  dsimp only
  split
  · refine State.dueColumn_settled ?_ line 0
    exact h
  · exact h

theorem State.imageLineEnd_settled (h : s.UrgentSettled) (line : Nat) : (s.imageLineEnd line).UrgentSettled := by
  unfold State.imageLineEnd
  dsimp only
  split
  · exact State.endImageLine_settled _ _
  · exact h

theorem State.columnDue_settled (h : s.UrgentSettled) (line column : Nat) : (s.columnDue line column).UrgentSettled := by
  unfold State.columnDue
  split
  · refine State.dueColumn_settled ?_ line column
    exact h
  · exact h

theorem State.readerCompletion_settled (h : s.UrgentSettled) (d : ReadData) : (s.readerCompletion d).UrgentSettled := by
  unfold State.readerCompletion State.whenNext
  split
  · exact State.settleUrgent_settled _
  · exact h

end

/-! ## The three together -/

/-- What every step keeps of the Memory Port, the Output Pipe and frame memory. -/
structure State.MemoryLive (s : State) : Prop where
  served : s.port.Served
  urgent : s.UrgentSettled
  canonical : s.MemoryCanonical

theorem State.memoryLive_iff (s : State) : s.MemoryLive ↔ s.MemoryPortLive ∧ s.MemoryCanonical :=
  ⟨fun ⟨hserved, hurgent, hcanonical⟩ => ⟨⟨hserved, hurgent⟩, hcanonical⟩,
    fun ⟨⟨hserved, hurgent⟩, hcanonical⟩ => ⟨hserved, hurgent, hcanonical⟩⟩

section
variable {s t : State}

/-- What touches neither the Memory Port nor frame memory keeps the three when it leaves urgent settled. -/
theorem State.MemoryLive.of_panel (h : s.MemoryLive) (hport : t.port = s.port) (hram : t.ram = s.ram)
    (hurgent : t.UrgentSettled) : t.MemoryLive where
  served := hport ▸ h.served
  urgent := hurgent
  canonical := by
    unfold State.MemoryCanonical
    rw [hram]
    exact h.canonical

theorem State.MemoryLive.congr (h : s.MemoryLive)
    (hkept : t.settings = s.settings ∧ t.port = s.port ∧ t.ram = s.ram ∧ t.out = s.out) : t.MemoryLive := by
  obtain ⟨hsettings, hport, hram, hout⟩ := hkept
  exact h.of_panel hport hram (h.urgent.congr hout hsettings)

/-- What changes the Memory Port alone keeps the three when no claim is left waiting. -/
theorem State.MemoryLive.of_port (h : s.MemoryLive)
    (hkept : t.settings = s.settings ∧ t.ram = s.ram ∧ t.out = s.out) (hserved : t.port.Served) : t.MemoryLive := by
  obtain ⟨hsettings, hram, hout⟩ := hkept
  refine ⟨hserved, h.urgent.congr hout hsettings, ?_⟩
  unfold State.MemoryCanonical
  rw [hram]
  exact h.canonical

theorem State.whenRunning_memoryLive (h : s.MemoryLive) (ht : t.MemoryLive) : (s.whenRunning t).MemoryLive := by
  unfold State.whenRunning
  split
  · exact ht
  · exact h

theorem State.whenNext_memoryLive (h : s.MemoryLive) (next : Bool) (ht : t.MemoryLive) : (s.whenNext next t).MemoryLive := by
  unfold State.whenNext
  split
  · exact ht
  · exact h

/-! ### The Memory Port (R149 to R153) -/

/-- A claim that arrives on an idle bus is granted at once (R150). -/
theorem State.claim_memoryLive (h : s.MemoryLive) (next : Bool)
    (hkept : t.settings = s.settings ∧ t.ram = s.ram ∧ t.out = s.out) : (s.whenNext next t.grant).MemoryLive :=
  State.whenNext_memoryLive h next (h.of_port (by simpa using hkept) t.grant_served)

/-- The end of a burst is followed by the next grant; a writer's bytes keep the canonical form (R150, R151). -/
theorem State.burstEnds_memoryLive (h : s.MemoryLive) (b : Burst) : ((s.deliver b).endBurst).grant.MemoryLive where
  served := State.grant_served _
  urgent := h.urgent.congr (by simp) (by simp)
  canonical := by
    unfold State.MemoryCanonical
    simpa using s.deliver_canonical b h.canonical

theorem State.memoryDiscard_memoryLive (h : s.MemoryLive) (slot : Nat) : (s.memoryDiscard slot).MemoryLive :=
  State.whenNext_memoryLive h _ (h.of_port ⟨rfl, rfl, rfl⟩ (MemoryPort.discard_served h.served slot))

theorem State.readerWithdrawal_memoryLive (h : s.MemoryLive) (line : Nat) : (s.readerWithdrawal line).MemoryLive :=
  State.whenNext_memoryLive h _ (h.of_port ⟨rfl, rfl, rfl⟩ (MemoryPort.withdraw_served h.served line))

/-! ### Start-up (R148, R173, R174) -/

/-- A reset leaves an idle bus, no slot latched, and frame memory but for the area of a burst cut short (R148). -/
theorem State.resetBy_memoryLive (h : s.MemoryLive) (kind : ResetKind) : (s.resetBy kind).MemoryLive where
  served := fun _ => ⟨rfl, rfl, rfl⟩
  urgent := rfl
  canonical := by
    cases kind with
    | powerOn => exact reset_canonical
    | pin => exact s.ramAfterReset_canonical h.canonical

theorem State.release_memoryLive (h : s.MemoryLive) (straps : ReleasePins) : (s.release straps).MemoryLive := by
  unfold State.release
  split
  · exact h.congr ⟨rfl, rfl, rfl, rfl⟩
  · exact h

theorem State.failAttempt_memoryLive (h : s.MemoryLive) (code : Nat) : (s.failAttempt code).MemoryLive := by
  unfold State.failAttempt State.halt
  dsimp only
  split <;> exact h.congr ⟨rfl, rfl, rfl, rfl⟩

/-- The image's settings come into force together with the FIRST frame start, which settles urgent by them (R160, R174). -/
theorem State.accept_memoryLive (h : s.MemoryLive) (c : Settings) : (s.accept c).MemoryLive := by
  have hsettled : (s.accept c).UrgentSettled := State.frameStart_settled _ .first .seeking
  exact h.of_panel (by simp [State.accept]) (by simp [State.accept]) hsettled

theorem State.imageRead_memoryLive (h : s.MemoryLive) (bytes : List Byte) : (s.imageRead bytes).MemoryLive := by
  have received : ({ s with loader := { s.loader with phase := .checking, image := bytes.map some } } : State).MemoryLive :=
    h.congr ⟨rfl, rfl, rfl, rfl⟩
  unfold State.imageRead
  dsimp only
  repeat' split
  · exact State.failAttempt_memoryLive received _
  · exact State.accept_memoryLive received _
  · exact h

end

/-! ## Every command and every pixel clock -/

/-- Claims, completions, discards and withdrawals reach the Memory Port; frame starts, edges and the panel reach the Output Pipe; a
running part's other commands touch neither, nor frame memory. -/
theorem exec_keeps_memoryLive {c : Instr} {s t : State} (h : s.MemoryLive) (hx : exec c s = .next t) : t.MemoryLive := by
  have taken {u : State} (hx : (.next (s.whenRunning u) : Host.Outcome State Fault Refusal) = .next t)
      (hu : u.MemoryLive) : t.MemoryLive := by
    obtain rfl := Host.Outcome.next.inj hx
    exact State.whenRunning_memoryLive h hu
  have kept {u : State} (hx : (.next (s.whenRunning u) : Host.Outcome State Fault Refusal) = .next t)
      (hu : u.settings = s.settings ∧ u.port = s.port ∧ u.ram = s.ram ∧ u.out = s.out) : t.MemoryLive :=
    taken hx (h.congr hu)
  have panel {u : State} (hx : (.next (s.whenRunning u) : Host.Outcome State Fault Refusal) = .next t)
      (hu : u.port = s.port ∧ u.ram = s.ram) (hurgent : u.UrgentSettled) : t.MemoryLive :=
    taken hx (h.of_panel hu.1 hu.2 hurgent)
  cases c with
  | reset kind =>
    obtain rfl := Host.Outcome.next.inj hx
    exact State.resetBy_memoryLive h kind
  | resetRelease straps =>
    obtain rfl := Host.Outcome.next.inj hx
    exact State.release_memoryLive h straps
  | imageReadDone bytes =>
    obtain rfl := Host.Outcome.next.inj hx
    exact State.imageRead_memoryLive h bytes
  | recordSent =>
    obtain rfl := Host.Outcome.next.inj hx
    exact h.congr ⟨rfl, rfl, rfl, rfl⟩
  | frameStart => exact panel hx (by simp) (State.naturalFrameStart_settled h.urgent)
  | markLost => exact panel hx (by simp) (State.frameStartWhen_settled h.urgent _)
  | seekSilence => exact panel hx (by simp) (State.frameStartWhen_settled h.urgent _)
  | restEnd => exact panel hx (by simp) (State.frameStartWhen_settled h.urgent _)
  | inputTimeout => exact panel hx (by simp) (State.frameStartWhen_settled h.urgent _)
  | markEdge time => exact panel hx (by simp) (State.takeEdge_settled h.urgent time)
  | imageLineStart line => exact panel hx (by simp) (State.imageLineStart_settled h.urgent line)
  | imageLineEnd line => exact panel hx (by simp) (State.imageLineEnd_settled h.urgent line)
  | underrun line column => exact panel hx (by simp) (State.columnDue_settled h.urgent line column)
  | readerCompletion d => exact panel hx (by simp) (State.readerCompletion_settled h.urgent d)
  | refreshClaim => exact taken hx (State.claim_memoryLive h _ ⟨rfl, rfl, rfl⟩)
  | writerClaim slot line => exact taken hx (State.claim_memoryLive h _ ⟨rfl, rfl, rfl⟩)
  | readerClaim item => exact taken hx (State.claim_memoryLive h _ ⟨rfl, rfl, rfl⟩)
  | burstCompletion =>
    cases hr : s.running with
    | true =>
      obtain rfl | ⟨b, rfl⟩ := burstCompletion_next hr hx
      · exact h
      · exact State.burstEnds_memoryLive h b
    | false =>
      rw [exec_held _ s hr rfl] at hx
      exact Host.Outcome.next.inj hx ▸ h
  | memoryDiscard slot => exact taken hx (State.memoryDiscard_memoryLive h slot)
  | readerWithdrawal line => exact taken hx (State.readerWithdrawal_memoryLive h line)
  | recordExpiry slot => exact kept hx (by split <;> simp)
  | markRisingEdge => exact kept hx ⟨rfl, rfl, rfl, rfl⟩
  | _ => exact kept hx (by simp)

/-- Settles O58: a step is the pixel clock's or the front command's. The pixel clock touches neither the Memory Port, the
Output Pipe nor frame memory. -/
theorem everyStepKeepsMemoryLive : Obligations.EveryStepKeepsMemoryLive := by
  intro s t hport hram hstep
  have h : s.MemoryLive := s.memoryLive_iff.2 ⟨hport, hram⟩
  refine t.memoryLive_iff.1 ?_
  unfold step at hstep
  split at hstep
  · obtain rfl := Host.Outcome.next.inj hstep
    exact h.congr (by simp)
  · rename_i c rest _
    exact exec_keeps_memoryLive (s := { s with pending := rest }) (h.congr ⟨rfl, rfl, rfl, rfl⟩) hstep

end Sys2Proof.Machine
end

section
/-! The stops: every command answers a next state but the completion of a burst outside frame memory (R147, R151, R172). -/

namespace Sys2Proof.Machine

open Sys2Proof

/-- Every command but BURST_COMPLETION answers a next state, whatever the state. -/
theorem exec_answers {c : Instr} (s : State) (hc : c ≠ .burstCompletion) : ∃ t, exec c s = .next t := by
  cases c with
  | burstCompletion => exact absurd rfl hc
  | _ => exact ⟨_, rfl⟩

/-- BURST_COMPLETION stops where the burst in flight lies outside frame memory, and answers a next state otherwise (R151). -/
theorem exec_burstCompletion_cases (s : State) :
    (s.running = true ∧ (∃ b, s.port.inFlight = some b ∧ b.inMemory s.settings = false) ∧
      exec .burstCompletion s = .fault .addressOutsideMemory) ∨
    (¬(s.running = true ∧ ∃ b, s.port.inFlight = some b ∧ b.inMemory s.settings = false) ∧
      ∃ t, exec .burstCompletion s = .next t) := by
  cases hr : s.running with
  | false => exact Or.inr ⟨by simp, s, exec_held _ s hr rfl⟩
  | true =>
    cases hflight : s.port.inFlight with
    | none => exact Or.inr ⟨by simp, s, exec_burstCompletion_none hr hflight⟩
    | some b =>
      cases hin : b.inMemory s.settings with
      | true => exact Or.inr ⟨by simp [hin], _, exec_burstCompletion_some hr hflight hin⟩
      | false =>
        refine Or.inl ⟨rfl, ⟨b, rfl, hin⟩, ?_⟩
        simp [exec, execBurstCompletion, hr, hflight, hin]

/-- Settles O5: the completion of a burst is the one command that can stop. -/
theorem onlyAnAddressOutsideMemoryStops : Obligations.OnlyAnAddressOutsideMemoryStops := by
  intro c s
  by_cases hc : c = .burstCompletion
  · subst hc
    rcases exec_burstCompletion_cases s with ⟨hr, hburst, hx⟩ | ⟨hinside, t, hx⟩
    · rw [hx]
      refine ⟨nofun, fun f => ⟨?_, ?_⟩⟩
      · rintro ⟨⟩
        exact ⟨rfl, rfl, hr, hburst⟩
      · rintro ⟨rfl, -⟩
        rfl
    · rw [hx]
      exact ⟨nofun, fun f => ⟨nofun, fun ⟨_, _, houtside⟩ => absurd houtside hinside⟩⟩
  · obtain ⟨t, hx⟩ := exec_answers s hc
    rw [hx]
    exact ⟨nofun, fun f => ⟨nofun, fun ⟨_, hburst, _⟩ => absurd hburst hc⟩⟩

end Sys2Proof.Machine
end

section
/-! The end of an image line: its mark, the withdrawal of its claims, and the turn of the line two ahead (R155, R158, R161). -/

namespace Sys2Proof.Machine

open Sys2Proof

/-! ## The line store (R155) -/

section
variable {o : OutputPipe} {j k : Nat}

/-- A change of one place is not seen at the lines of the other places. -/
theorem OutputPipe.place_of_modify_ne {p : OutputPipe} {f : LinePlace → LinePlace}
    (hplaces : p.places = o.places.modify (j % 3) f) (hk : k % 3 ≠ j % 3) : p.place k = o.place k := by
  simp [OutputPipe.place, hplaces, Ne.symm hk]

theorem OutputPipe.place_setMark_ne (hk : k % 3 ≠ j % 3) (mark : PlaceMark) : (o.setMark j mark).place k = o.place k :=
  OutputPipe.place_of_modify_ne rfl hk

theorem OutputPipe.place_setMark {count : Nat} {old : PlaceMark} {bytes : List Byte}
    (h : o.place j = .holds j count old bytes) (mark : PlaceMark) : (o.setMark j mark).place j = .holds j count mark bytes := by
  rw [OutputPipe.place_eq_holds_iff] at h ⊢
  obtain ⟨hlt, -⟩ := List.getElem?_eq_some_iff.1 h
  rw [OutputPipe.setMark_places h, List.getElem?_set_self hlt]

theorem OutputPipe.place_placeLine_ne (hk : k % 3 ≠ j % 3) : (o.placeLine j).place k = o.place k :=
  OutputPipe.place_of_modify_ne rfl hk

/-- A line that has had its turn is in its place, ACTIVE, with no burst held (R158). -/
theorem OutputPipe.place_placeLine (hlength : o.places.length = 3) (j : Nat) :
    (o.placeLine j).place j = .holds j 0 .active [] := by
  have hlt : j % 3 < o.places.length := by omega
  simp [OutputPipe.place, OutputPipe.placeLine, hlt]

end

/-! ## The end of the line (R161) -/

section
variable {s : State} {line : Nat}

/-- The line is marked, its claims are withdrawn, and the current line moves on (R161), before the next line has its turn. -/
def State.lineEnded (s : State) (line : Nat) : State :=
  { s with
    out := { s.out.setMark line .ended with currentLine := line + 1 }
    transit := s.transit.sendReader [.withdraw line] }

theorem State.endImageLine_eq (s : State) (line : Nat) :
    s.endImageLine line = (s.lineEnded line).placeTurn.settleUrgent := rfl

/-- The mark alone changes the line store, at the line's own place. -/
theorem State.place_lineEnded {count : Nat} {mark : PlaceMark} {bytes : List Byte}
    (h : s.out.place line = .holds line count mark bytes) :
    (s.lineEnded line).out.place line = .holds line count .ended bytes := OutputPipe.place_setMark h .ended

theorem State.place_lineEnded_ne {k : Nat} (hk : k % 3 ≠ line % 3) : (s.lineEnded line).out.place k = s.out.place k :=
  OutputPipe.place_setMark_ne hk .ended

/-- With a slot latched and a line still to place, that line has its turn (R158). -/
theorem State.endImageLine_places {slot next : Nat} (hslot : s.out.latched = some slot) (hnext : s.out.nextLine = next)
    (hwh : next < s.settings.wh) : s.endImageLine line = ({ s.lineEnded line with
      out := (s.lineEnded line).out.placeLine next
      transit := (s.lineEnded line).transit.sendReader [.item (.claims slot next)] } : State).settleUrgent := by
  subst hnext
  exact congrArg State.settleUrgent ((s.lineEnded line).placeTurn_places slot hslot hwh)

/-- With no slot latched, or every line placed, the turn places nothing. -/
theorem State.endImageLine_nothing (h : s.out.latched = none ∨ s.settings.wh ≤ s.out.nextLine) :
    s.endImageLine line = (s.lineEnded line).settleUrgent :=
  congrArg State.settleUrgent ((s.lineEnded line).placeTurn_nothing h)

/-- What the end of a line changes: the line store, the next and the current line, urgent, and the reader's items on their
way. -/
theorem State.endImageLine_frame_eq (s : State) (line : Nat) : s.endImageLine line = { s with
    out := { s.out with
      places := (s.endImageLine line).out.places, nextLine := (s.endImageLine line).out.nextLine
      currentLine := line + 1, urgent := (s.endImageLine line).out.urgent }
    transit := { s.transit with readerItems := (s.endImageLine line).transit.readerItems } } := by
  rw [State.endImageLine_eq]
  unfold State.placeTurn
  repeat' split
  all_goals rfl

/-- The last window pixel of an image line lies in every frame that fits (R14). -/
theorem Settings.lineEnd_within {c : Settings} (h : c.Fits) {line : Nat} (hline : line < c.wh) :
    1 ≤ c.imageLn line ∧ c.imageLn line ≤ c.fl ∧ 1 ≤ c.lastColumnPx ∧ c.lastColumnPx ≤ c.ll := by
  unfold Settings.Fits at h
  unfold Settings.imageLn Settings.lastColumnPx
  omega

/-- IMAGE_LINE_END of the open line brings the counters to the end of its last window pixel (R14, R161; log 1). -/
theorem exec_imageLineEnd_open (hr : s.running = true) (hfits : s.settings.Fits) (hline : line < s.settings.wh)
    (hopen : s.tb.openLine = some line) :
    ∃ tb : Timebase, exec (.imageLineEnd line) s = .next (({ s with tb := tb } : State).endImageLine line) ∧
      tb = { s.tb with ln := s.settings.va0 + s.settings.wy + line,
                       px := s.settings.ha0 + s.settings.wx + s.settings.ww - 1, openLine := none, phase := .ended,
                       wrapMet := tb.wrapMet, stateBefore := tb.stateBefore, stateAtEnd := tb.stateAtEnd } := by
  obtain ⟨hln, hfl, hpx, hll⟩ := Settings.lineEnd_within hfits hline
  have hmove := s.moveToEnd_inside _ _ hln hfl hpx hll
  refine ⟨{ (s.moveToEnd (s.settings.imageLn line) s.settings.lastColumnPx).tb with openLine := none },
    exec_of_running hr ?_, ?_⟩
  · simp [exec, execImageLineEnd, State.imageLineEnd, hopen]
  · rw [hmove]
    rfl

end

/-- Settles O38: the line ends, and the line two ahead has its turn where there is one. -/
theorem imageLineEndPlacesTheLineTwoAhead : Obligations.ImageLineEndPlacesTheLineTwoAhead := by
  intro s line hr hfits hlength hline hopen
  obtain ⟨tb, hexec, htb⟩ := exec_imageLineEnd_open hr hfits hline hopen
  refine ⟨_, hexec, ?_, by simpa using htb, fun slot hslot hnext hwh => ?_, fun hnothing => ?_⟩
  · simpa using ({ s with tb := tb } : State).endImageLine_frame_eq line
  · rw [State.endImageLine_places (s := { s with tb := tb }) hslot hnext hwh]
    have hstore : (s.lineEnded line).out.places.length = 3 := OutputPipe.setMark_inRange hlength line .ended
    have kept {k : Nat} (hk : k % 3 ≠ (line + 2) % 3) := OutputPipe.place_placeLine_ne (o := (s.lineEnded line).out) hk
    refine ⟨rfl, OutputPipe.place_placeLine hstore _, by simp [State.lineEnded, Transit.sendReader],
      fun count mark bytes hheld => ?_, ?_⟩
    · exact (kept (by omega)).trans (State.place_lineEnded hheld)
    · exact (kept (by omega)).trans (State.place_lineEnded_ne (by omega))
  · rw [State.endImageLine_nothing (s := { s with tb := tb }) hnothing]
    exact ⟨rfl, rfl, fun count mark bytes hheld => State.place_lineEnded hheld, fun k hk => State.place_lineEnded_ne hk⟩

end Sys2Proof.Machine
end

section
/-! A reader completion: the burst kept in its place or discarded, and urgent settled on what the store then holds (R155, R159,
R160). -/

namespace Sys2Proof.Machine

open Sys2Proof

/-! ## Urgent (R160) -/

section
variable (o : OutputPipe)

theorem OutputPipe.marked_iff (j : Nat) (mark : PlaceMark) :
    o.marked j mark = true ↔ ∃ count bytes, o.place j = .holds j count mark bytes := by
  unfold OutputPipe.marked
  cases o.place j with
  | vacant => simp
  | holds line count held bytes => simp

theorem OutputPipe.whollyResident_iff (bursts j : Nat) :
    o.whollyResident bursts j = true ↔ ∃ mark bytes, o.place j = .holds j bursts mark bytes := by
  unfold OutputPipe.whollyResident
  cases o.place j with
  | vacant => simp
  | holds line count held bytes => simp

/-- A line held ACTIVE is not wholly resident when its count differs from the line's bursts (R155). -/
theorem OutputPipe.active_not_resident_iff (bursts j : Nat) :
    (o.marked j .active = true ∧ ¬o.whollyResident bursts j = true) ↔
      ∃ count bytes, o.place j = .holds j count .active bytes ∧ count ≠ bursts := by
  rw [o.marked_iff, o.whollyResident_iff]
  constructor
  · rintro ⟨⟨count, bytes, hheld⟩, hshort⟩
    exact ⟨count, bytes, hheld, fun hfull => hshort ⟨.active, bytes, hfull ▸ hheld⟩⟩
  · rintro ⟨count, bytes, hheld, hshort⟩
    refine ⟨⟨count, bytes, hheld⟩, ?_⟩
    rintro ⟨mark, others, hfull⟩
    rw [hheld] at hfull
    injection hfull with _ hcount
    exact hshort hcount

/-- The condition of urgent, by what the store holds of the current line and the line after it (R160). -/
theorem OutputPipe.urgentCondition_iff (wh bursts : Nat) : o.urgentCondition wh bursts = true ↔
    o.latched ≠ none ∧ o.currentLine < wh ∧
      ((∃ count bytes, o.place o.currentLine = .holds o.currentLine count .active bytes ∧ count ≠ bursts) ∨
        o.currentLine + 1 < wh ∧
          ¬∃ mark bytes, o.place (o.currentLine + 1) = .holds (o.currentLine + 1) bursts mark bytes) := by
  rw [← o.active_not_resident_iff, ← o.whollyResident_iff, ← Option.isSome_iff_ne_none]
  simp [OutputPipe.urgentCondition, and_assoc]

end

/-! ## The burst that arrives (R159) -/

section
variable {o : OutputPipe} {d : ReadData}

theorem OutputPipe.accepts_iff (o : OutputPipe) (d : ReadData) : o.accepts d = true ↔
    o.latched = some d.slot ∧ ∃ bytes, o.place d.line = .holds d.line d.burst .active bytes := by
  simp [OutputPipe.accepts, OutputPipe.activeCount_eq_some_iff, OutputPipe.place_eq_holds_iff]

/-- An accepted burst is kept: the line's place holds its bytes and counts one more. -/
theorem OutputPipe.takeRead_kept {bytes : List Byte} (hslot : o.latched = some d.slot)
    (hheld : o.place d.line = .holds d.line d.burst .active bytes) :
    (o.takeRead d).places = o.places.set (d.line % 3) (.holds d.line (d.burst + 1) .active (bytes ++ d.data)) := by
  have haccepted : o.accepts d = true := (o.accepts_iff d).2 ⟨hslot, bytes, hheld⟩
  rw [OutputPipe.place_eq_holds_iff] at hheld
  rw [OutputPipe.takeRead, if_pos haccepted, List.modify_eq_set_getElem?, hheld]
  rfl

/-- Every other burst is discarded, and no place changes. -/
theorem OutputPipe.takeRead_discarded
    (h : ¬(o.latched = some d.slot ∧ ∃ bytes, o.place d.line = .holds d.line d.burst .active bytes)) :
    (o.takeRead d).places = o.places := by
  rw [← o.accepts_iff] at h
  rw [OutputPipe.takeRead, if_neg h]

/-- Kept or discarded, a burst changes at most the line store. -/
theorem OutputPipe.takeRead_eq (o : OutputPipe) (d : ReadData) :
    o.takeRead d = { o with places := (o.takeRead d).places } := by
  unfold OutputPipe.takeRead
  split <;> rfl

@[simp] theorem OutputPipe.takeRead_latched (o : OutputPipe) (d : ReadData) : (o.takeRead d).latched = o.latched := by
  rw [o.takeRead_eq d]

@[simp] theorem OutputPipe.takeRead_currentLine (o : OutputPipe) (d : ReadData) :
    (o.takeRead d).currentLine = o.currentLine := by
  rw [o.takeRead_eq d]

end

/-! ## The completion -/

theorem Transit.takeRead_eq {t : Transit} {d : ReadData} {rest : List ReadData} (h : t.reads = d :: rest) :
    t.takeRead = { t with reads := rest } := by
  rw [Transit.takeRead, h, List.tail_cons]

/-- READER_COMPLETION of the next burst on its way: it leaves the transit, and urgent is settled on the store after it. -/
theorem exec_readerCompletion_next {s : State} {d : ReadData} {rest : List ReadData} (hr : s.running = true)
    (h : s.transit.reads = d :: rest) : exec (.readerCompletion d) s = .next { s with
      transit := { s.transit with reads := rest }
      out := { s.out with
        places := (s.out.takeRead d).places
        urgent := (s.out.takeRead d).urgentCondition s.settings.wh s.settings.bursts } } := by
  have hexec := exec_of_next (c := .readerCompletion d) hr rfl
    ((s.transit.nextRead_iff d).2 (by rw [h, List.head?_cons]))
  rw [hexec, Transit.takeRead_eq h]
  unfold State.settleUrgent OutputPipe.settleUrgent
  rw [s.out.takeRead_eq d]

/-- Settles O39: the burst is kept on the three conditions of R159, and urgent is the condition of R160 after it. -/
theorem readerCompletionIsKeptOrDiscarded : Obligations.ReaderCompletionIsKeptOrDiscarded := by
  intro s d rest hr _ hreads
  have hurgent := (s.out.takeRead d).urgentCondition_iff s.settings.wh s.settings.bursts
  rw [OutputPipe.takeRead_latched, OutputPipe.takeRead_currentLine] at hurgent
  exact ⟨_, exec_readerCompletion_next hr hreads, rfl, fun _ => OutputPipe.takeRead_kept, OutputPipe.takeRead_discarded,
    hurgent⟩

end Sys2Proof.Machine
end

section
/-! Steps and the queue of waiting commands, which is the MODEL's own (log 2). -/

namespace Sys2Proof.Machine

open Sys2Proof

/-- Settles O1: a step takes the front command off the queue, and runs it. -/
theorem stepRunsTheFrontCommand : Obligations.StepRunsTheFrontCommand := fun _ _ _ => rfl

@[simp] theorem State.release_pending (s : State) (straps : ReleasePins) : (s.release straps).pending = s.pending := by
  unfold State.release; split <;> rfl

@[simp] theorem State.failAttempt_pending (s : State) (code : Nat) : (s.failAttempt code).pending = s.pending := by
  unfold State.failAttempt; dsimp only; split <;> rfl

@[simp] theorem State.accept_pending (s : State) (c : Settings) : (s.accept c).pending = s.pending := by
  simp [State.accept]

@[simp] theorem State.imageRead_pending (s : State) (bytes : List Byte) : (s.imageRead bytes).pending = s.pending := by
  unfold State.imageRead; dsimp only; (repeat' split) <;> simp

/-- Settles O3: a running part's command keeps the queue by the frame of its operation, and a held part's changes nothing; the
start-up commands, the end of a burst and the end of a record act apart from that. -/
theorem everyCommandKeepsTheQueue : Obligations.EveryCommandKeepsTheQueue := by
  intro c s t hx
  have taken {u : State} (hx : (.next (s.whenRunning u) : Host.Outcome State Fault Refusal) = .next t)
      (hu : u.pending = s.pending) : t.pending = s.pending := by
    obtain rfl := Host.Outcome.next.inj hx
    cases hr : s.running <;> simp [hr, hu]
  cases c with
  | reset kind =>
    obtain rfl := Host.Outcome.next.inj hx
    rfl
  | resetRelease straps =>
    obtain rfl := Host.Outcome.next.inj hx
    exact s.release_pending straps
  | imageReadDone bytes =>
    obtain rfl := Host.Outcome.next.inj hx
    exact s.imageRead_pending bytes
  | recordSent =>
    obtain rfl := Host.Outcome.next.inj hx
    rfl
  | burstCompletion =>
    cases hr : s.running with
    | true =>
      obtain rfl | ⟨b, rfl⟩ := burstCompletion_next hr hx
      · rfl
      · simp
    | false =>
      rw [exec_held _ s hr rfl] at hx
      exact Host.Outcome.next.inj hx ▸ rfl
  | recordExpiry slot => exact taken hx (by split <;> simp)
  | markRisingEdge => exact taken hx rfl
  | _ => exact taken hx (by simp)

end Sys2Proof.Machine
end

section
/-! The release of reset and a failed attempt: the straps and the read of the serial memory (R168 to R170), and the third failure
with its events (R173). -/

namespace Sys2Proof.Machine

open Sys2Proof

/-! ## The read of the serial memory (R170) -/

/-- The command 0x03 and the address 0, most significant bit first: bits 6 and 7 alone are 1. -/
theorem attemptSdo_command : ∀ k < 32, attemptSdo[k]? = some (if k = 6 ∨ k = 7 then Level.high else .low) := by
  decide

/-- SDO is low while the 64 bytes are clocked in. -/
theorem attemptSdo_data {k : Nat} (h : k < 512) : attemptSdo[32 + k]? = some .low := by
  have hcommand : ((([0x03, 0x00, 0x00, 0x00] : List Byte).flatMap msbFirst).map
      (fun bit => if bit then Level.high else .low)).length = 32 := rfl
  rw [attemptSdo, List.getElem?_append_right (by omega), hcommand, Nat.add_sub_cancel_left]
  exact List.getElem?_replicate_of_lt h

section
variable {s : State}

theorem State.scs_of_transacts (h : s.loader.transacts = true) : s.pins.scs = .low := if_pos h

theorem State.sdoAt_of_transacts (h : s.loader.transacts = true) (edge : Nat) : s.sdoAt edge = attemptSdo[edge]? := if_pos h

/-- Without a transaction SCS is high and SCK low (R168). -/
theorem State.serialPins_of_idle (h : s.loader.transacts = false) : s.pins.scs = .high ∧ s.pins.sck = some .low := by
  simp [State.pins, State.scs, State.sck, h]

/-- An attempt that no pixel clock has met has read nothing (R168; log 26). -/
theorem State.imageRead_of_clockAbsent (h : s.loader.clockAbsent = true) (bytes : List Byte) : s.imageRead bytes = s := by
  simp [State.imageRead, h]

/-- The pixel clock of an attempt that reads (R168). -/
theorem step_reading (hphase : s.loader.phase = .reading) (hqueue : s.pending = []) : step s = .next s.clockLoader := by
  simp [step, State.tick, hphase, hqueue]

/-! ## The release of reset (R169) -/

/-- The Loader at the first attempt after a release (R169, R170). -/
def Loader.released (l : Loader) (straps : BitVec 4) (clockRuns : Bool) : Loader :=
  ⟨.reading, straps, l.attempts + 1, l.faults, List.replicate 64 none, !clockRuns⟩

theorem Loader.released_transacts (l : Loader) (straps : BitVec 4) (clockRuns : Bool) :
    (l.released straps clockRuns).transacts = clockRuns := by
  simp [Loader.released, Loader.transacts]

theorem exec_resetRelease_held (hphase : s.loader.phase = .held) (straps : BitVec 4) (clockRuns : Bool) :
    exec (.resetRelease ⟨straps, clockRuns⟩) s = .next { s with loader := s.loader.released straps clockRuns } :=
  congrArg Host.Outcome.next (if_pos hphase)

end

/-- Settles O7: the release begins an attempt, which reads where the clock runs and otherwise waits for the first step of an
empty queue. -/
theorem releaseSamplesTheStraps : Obligations.ReleaseSamplesTheStraps := by
  intro straps clockRuns s hphase
  refine ⟨_, exec_resetRelease_held hphase straps clockRuns, rfl, ?_, ?_⟩
  · rintro rfl
    have hreads := s.loader.released_transacts straps true
    refine ⟨State.scs_of_transacts hreads, fun k hk => ?_, fun k hk => ?_⟩
    · rw [State.sdoAt_of_transacts hreads]
      exact attemptSdo_command k hk
    · rw [State.sdoAt_of_transacts hreads]
      exact attemptSdo_data hk
  · rintro rfl
    obtain ⟨hscs, hsck⟩ := State.serialPins_of_idle (s := { s with loader := s.loader.released straps false })
      (s.loader.released_transacts straps false)
    refine ⟨hscs, hsck, fun bytes => ?_, fun hqueue => ?_⟩
    · exact congrArg Host.Outcome.next (State.imageRead_of_clockAbsent rfl bytes)
    · exact ⟨_, step_reading rfl hqueue, rfl, State.scs_of_transacts rfl⟩

/-! ## A failed attempt (R173) -/

/-- The part as the checks find it: the 64 bytes received, and CHECKING (R171). -/
def State.received (s : State) (bytes : List Byte) : State :=
  { s with loader := { s.loader with phase := .checking, image := bytes.map some } }

section
variable {s : State} {bytes : List Byte} {code : Nat}

theorem imageRead_failed (hphase : s.loader.phase = .reading) (hclock : s.loader.clockAbsent = false)
    (hlength : bytes.length = 64) (hcode : faultCode s.loader.index bytes = some code) :
    s.imageRead bytes = (s.received bytes).failAttempt code := by
  simp [State.imageRead, State.received, hphase, hclock, hlength, hcode]

theorem State.failAttempt_again (h : s.loader.attempts < 3) : s.failAttempt code = { s with
    loader := ({ s.loader with faults := s.loader.faults ++ [code] } : Loader).beginAttempt } := if_pos h

theorem State.failAttempt_last (h : s.loader.attempts = 3) : s.failAttempt code =
    ({ s with loader := { s.loader with faults := s.loader.faults ++ [code] } } : State).halt :=
  if_neg (by simp [Config.loadAttempts, h])

end

/-- The three events of a halt, into an empty queue with nothing lost (R173, R177). -/
theorem ReportPort.postFaults_three {p : ReportPort} (hqueue : p.queue = []) (hlost : p.lost = 0) (a b c : Nat) :
    (p.postFaults 1 [a, b, c]).queue = [⟨.event 0 (.configFault a 1), 0⟩, ⟨.event 0 (.configFault b 2), 0⟩,
      ⟨.event 0 (.configFault c 3), 0⟩] := by
  simp [ReportPort.postFaults, ReportPort.post_room, hqueue, hlost]

/-- Settles O9: the count of the attempts decides between another attempt and the halt. -/
theorem failedAttemptReadsAgainOrHalts : Obligations.FailedAttemptReadsAgainOrHalts := by
  intro bytes s code hphase hclock hlength hcode
  have hread := imageRead_failed hphase hclock hlength hcode
  constructor
  · intro hagain
    refine congrArg Host.Outcome.next ?_
    rw [hread, State.failAttempt_again (s := s.received bytes) hagain, ← hclock]
    rfl
  · intro a b hlast hfaults hqueue hlost
    refine ⟨_, congrArg Host.Outcome.next hread, ?_⟩
    rw [State.failAttempt_last (s := s.received bytes) hlast]
    refine ⟨rfl, rfl, congrArg (· ++ [code]) hfaults, hlast, ?_, rfl⟩
    simp only [State.halt, State.received, hfaults, List.cons_append, List.nil_append]
    exact ReportPort.postFaults_three hqueue hlost a b code

end Sys2Proof.Machine
end

section
/-! The ten checks of the Configuration Loader (R171, R172): the fault code as the first that fails, what an accepted image fits,
and each check on the bytes of the image (Tables 11-3, 11-4 and 13-3). -/

namespace Sys2Proof.Machine

open Sys2Proof

/-! ## The fault code (R171) -/

theorem findIdx_failed_iff (checks : List Bool) (k : Nat) :
    checks.findIdx? (fun holds => !holds) = some k ↔ checks[k]? = some false ∧ ∀ j < k, checks[j]? = some true := by
  rw [List.findIdx?_eq_some_iff_getElem]
  constructor
  · rintro ⟨hk, hfails, hbefore⟩
    exact ⟨List.getElem?_eq_some_iff.2 ⟨hk, by simpa using hfails⟩,
      fun j hj => List.getElem?_eq_some_iff.2 ⟨hj.trans hk, by simpa using hbefore j hj⟩⟩
  · rintro ⟨hfails, hbefore⟩
    obtain ⟨hk, hat⟩ := List.getElem?_eq_some_iff.1 hfails
    refine ⟨hk, by simp [hat], fun j hj => ?_⟩
    obtain ⟨_, hj'⟩ := List.getElem?_eq_some_iff.1 (hbefore j hj)
    simp [hj']

section
variable {index : BitVec 4} {image : List Byte}

theorem faultCode_eq_some_iff (k : Nat) : faultCode index image = some (k + 1) ↔
    (imageChecks index image)[k]? = some false ∧ ∀ j < k, (imageChecks index image)[j]? = some true := by
  rw [← findIdx_failed_iff]
  simp [faultCode]

theorem faultCode_ne_zero : faultCode index image ≠ some 0 := by simp [faultCode]

theorem faultCode_eq_none_iff_getElem : faultCode index image = none ↔
    ∀ j < 10, (imageChecks index image)[j]? = some true := by
  rw [faultCode_eq_none_iff]
  constructor
  · intro hall j hj
    have hlength : j < (imageChecks index image).length := hj
    rw [List.getElem?_eq_getElem hlength, hall _ (List.getElem_mem hlength)]
  · intro hall holds hmem
    obtain ⟨j, hj, rfl⟩ := List.mem_iff_getElem.1 hmem
    exact (List.getElem?_eq_some_iff.1 (hall j hj)).2

/-! ## What an accepted image fits (R172) -/

theorem index_lt_of_accepted (h : faultCode index image = none) : index.toNat < (settingsOf image).n := by
  have hindex : indexHolds index (settingsOf image) = true :=
    (faultCode_eq_none_iff index image).1 h _ (by simp [imageChecks])
  exact of_decide_eq_true hindex

end

/-- Every burst of the four frame slots lies within four slot sizes (R147). -/
theorem Settings.burst_within {c : Settings} {slot line burst : Nat} (hslot : slot < 4) (hline : line < c.wh)
    (hburst : burst < c.bursts) : c.burstAddress slot line burst + 64 ≤ 4 * c.slotSize := by
  have hlines : line * c.pitch + c.pitch ≤ c.slotSize := by
    rw [← Nat.succ_mul]
    exact Nat.mul_le_mul_right _ hline
  have hslots : slot * c.slotSize + c.slotSize ≤ 4 * c.slotSize := by
    rw [← Nat.succ_mul]
    exact Nat.mul_le_mul_right _ hslot
  have hbursts : burst * 64 + 64 ≤ c.pitch := by
    rw [Settings.pitch]
    omega
  rw [Settings.burstAddress]
  omega

/-! ## The checks on the bytes of the image (Tables 11-3, 11-4, 13-3) -/

section
variable (image : List Byte)

theorem imageWord_eq (k : Nat) : imageWord image k = 256 * imageNat image k + imageNat image (k + 1) := word16_toNat _ _

theorem imageByte_eq_iff (k : Nat) (b : Byte) : imageByte image k = b ↔ imageNat image k = b.toNat :=
  BitVec.toNat_inj.symm

theorem checkSignature_iff : checkSignature image = true ↔ imageNat image 0 = 0x54 ∧ imageNat image 1 = 0x4C := by
  simp [checkSignature, imageByte_eq_iff]

theorem checkVersion_iff : checkVersion image = true ↔ imageNat image 2 = 1 := by
  simp [checkVersion, imageByte_eq_iff]

theorem checkCrc_iff : checkCrc image = true ↔ imageWord image 62 = (crc16 msbFirst (image.take 62)).toNat := by
  rw [checkCrc, decide_eq_true_iff, ← BitVec.toNat_inj]
  rfl

/-- The high four bits of a byte are 0. -/
theorem highBits_eq_zero_iff (b : Byte) : b.extractLsb' 4 4 = 0#4 ↔ b.toNat < 16 := by
  rw [← BitVec.toNat_inj, BitVec.extractLsb'_toNat, Nat.shiftRight_eq_div_pow]
  have := b.isLt
  simp only [BitVec.toNat_ofNat]
  omega

theorem checkFill_iff : checkFill image = true ↔
    (∀ k, 56 ≤ k → k ≤ 61 → imageNat image k = 0) ∧ imageNat image 50 < 16 := by
  rw [checkFill, Bool.and_eq_true, decide_eq_true_iff, highBits_eq_zero_iff, List.all_eq_true]
  refine and_congr_left fun _ => ⟨fun hzero k hlow hhigh => ?_, fun hzero k hk => ?_⟩
  · have := hzero (k - 56) (List.mem_range.2 (by omega))
    rw [decide_eq_true_iff, imageByte_eq_iff, Nat.add_sub_cancel' hlow] at this
    exact this
  · rw [decide_eq_true_iff, imageByte_eq_iff]
    have := List.mem_range.1 hk
    exact hzero _ (by omega) (by omega)

theorem imageWord_lt (k : Nat) : imageWord image k < 65536 := BitVec.isLt _

/-- Check 5: Table 11-4 with the fields at their places. A two-byte field cannot exceed the divisor's upper bound. -/
theorem checkRange_iff : checkRange image = true ↔
    (64 ≤ imageWord image 4 ∧ imageWord image 4 ≤ 4096) ∧ (32 ≤ imageWord image 6 ∧ imageWord image 6 ≤ 2048) ∧
    (∀ k, k = 8 ∨ k = 10 ∨ k = 16 ∨ k = 18 → 1 ≤ imageWord image k ∧ imageWord image k ≤ 4096) ∧
    (∀ k, k = 12 ∨ k = 14 ∨ k = 20 ∨ k = 22 ∨ k = 34 ∨ k = 36 ∨ k = 38 ∨ k = 40 →
      1 ≤ imageWord image k ∧ imageWord image k ≤ 2048) ∧
    imageWord image 24 ≤ 4095 ∧ imageWord image 26 ≤ 2047 ∧ (1 ≤ imageWord image 28 ∧ imageWord image 28 ≤ 4096) ∧
    (1 ≤ imageWord image 30 ∧ imageWord image 30 ≤ 2048) ∧ (2 ≤ imageNat image 3 ∧ imageNat image 3 ≤ 16) ∧
    (1 ≤ imageNat image 32 ∧ imageNat image 32 ≤ 8) ∧ (4 ≤ imageNat image 33 ∧ imageNat image 33 ≤ 64) ∧
    imageNat image 51 ≤ 3 ∧ imageNat image 52 ≤ 250 ∧ 16 ≤ imageWord image 53 ∧ imageNat image 55 ≤ 1 := by
  have hdivisor : (settingsOf image).reportDivisor ≤ 65535 := Nat.le_of_lt_succ (imageWord_lt image 53)
  simp only [checkRange, inRange, Bool.and_eq_true, decide_eq_true_eq, List.all_cons, List.all_nil, forall_eq_or_imp,
    forall_eq, Nat.zero_le, true_and, and_true, hdivisor, and_assoc]
  exact Iff.rfl

/-- Check 6: the constraints of R172 with the fields at their places. -/
theorem orderHolds_settingsOf_iff : orderHolds (settingsOf image) = true ↔
    (imageWord image 8 ≤ imageWord image 10 ∧ imageWord image 10 ≤ imageWord image 4) ∧
    (2 ≤ imageWord image 12 ∧ imageWord image 12 ≤ imageWord image 14 ∧ imageWord image 14 < imageWord image 34) ∧
    (imageWord image 16 ≤ imageWord image 18 ∧ imageWord image 18 ≤ imageWord image 4) ∧
    (imageWord image 20 ≤ imageWord image 22 ∧ imageWord image 22 ≤ imageWord image 6) ∧
    imageWord image 24 + imageWord image 28 + imageWord image 8 ≤ imageWord image 10 + 1 ∧
    imageWord image 26 + imageWord image 30 + imageWord image 12 ≤ imageWord image 14 + 1 ∧
    imageWord image 34 + imageNat image 3 * imageNat image 32 ≤ imageWord image 36 ∧
    imageWord image 36 + 2 ≤ imageWord image 38 ∧
    (imageWord image 38 < imageWord image 40 ∧ imageWord image 40 ≤ imageWord image 6) ∧
    imageNat image 48 ≤ imageNat image 49 := by
  simp only [orderHolds, Bool.and_eq_true, decide_eq_true_eq, BitVec.le_def, and_assoc]
  exact Iff.rfl

end

/-- Settles O8: each of the ten checks is read off the bytes, and the bounds of an accepted image off the checks. -/
theorem faultCodeIsTheFirstFailedCheck : Obligations.FaultCodeIsTheFirstFailedCheck := by
  intro index image
  refine ⟨faultCode_eq_some_iff, faultCode_ne_zero, faultCode_eq_none_iff_getElem, fun haccepted => ?_, ?_⟩
  · have hfits := settingsOf_fits haccepted
    have hmemory : 4 * (settingsOf image).slotSize ≤ (settingsOf image).memoryBytes := by
      obtain ⟨-, -, -, -, -, -, -, -, -, ⟨-, -, hmemory⟩, -⟩ := hfits
      exact hmemory
    exact ⟨hfits, index_lt_of_accepted haccepted, fun slot hslot line hline burst hburst =>
      (Settings.burst_within hslot hline hburst).trans hmemory⟩
  · intro _ byte word hbyte hword
    obtain rfl : byte = imageNat image := funext hbyte
    obtain rfl : word = imageWord image := funext fun k => (hword k).trans (imageWord_eq image k).symm
    have holds {check : Bool} {claim : Prop} (h : check = true ↔ claim) : some check = some true ↔ claim :=
      Option.some_inj.trans h
    exact ⟨holds (checkSignature_iff image), holds (checkVersion_iff image), holds (checkCrc_iff image),
      holds (checkFill_iff image), holds (checkRange_iff image), holds (orderHolds_settingsOf_iff image),
      holds decide_eq_true_iff, holds decide_eq_true_iff, holds decide_eq_true_iff, holds decide_eq_true_iff⟩

end Sys2Proof.Machine
end

section
/-! The Report Port and the status pins: the queue of records (R176, R177, R181), ATTN (R182), the transmitter of RPT (R176), and
the bytes of the records (Tables 13-4 to 13-6, R184). -/

namespace Sys2Proof.Machine

open Sys2Proof

/-! ## The queue (R176, R177) -/

/-- Settles O52: the record at the front leaves, and a post goes by the room in the queue. -/
theorem recordSentFreesItsPlace : Obligations.RecordSentFreesItsPlace := by
  refine ⟨fun s => ⟨fun hqueue => ?_, fun q rest hqueue => ?_⟩, fun p body => ⟨fun hroom => ?_, p.post_full body⟩⟩
  · simp [exec, execRecordSent, ReportPort.recordSent, hqueue]
  · simp [exec, execRecordSent, ReportPort.recordSent, hqueue]
  · rw [p.post_room body hroom]
    refine ⟨rfl, ?_, ?_⟩
    · rintro f rfl
      rfl
    · rintro afn e rfl
      rfl

/-! ## ATTN (R182) -/

/-- Settles O54: ATTN is MembershipState.attn of the state, and RESET leaves CONFIG. -/
theorem attnTellsWhetherInService : Obligations.AttnTellsWhetherInService := by
  intro s
  have hattn : s.pins.attn = s.member.state.attn := rfl
  rw [hattn]
  refine ⟨?_, ?_, fun kind t hx => ?_⟩
  · rintro (h | h | h | h) <;> rw [h] <;> rfl
  · rintro (h | h | h) <;> rw [h] <;> rfl
  · obtain rfl := Host.Outcome.next.inj hx
    rfl

/-! ## The transmitter (R176) -/

/-- The Report Port at pixel clock `clock` of bit `bit` of the record, counted from the record's first bit: ten bits make a
character. -/
def ReportPort.sendingAt (p : ReportPort) (bit clock : Nat) : ReportPort :=
  { p with tx := .sending (bit / 10) (bit % 10) (p.divisor - clock) }

section
variable {p : ReportPort} {q : QueuedRecord} {rest : List QueuedRecord} {bit clock : Nat}

/-- Within a bit. -/
theorem ReportPort.clock_in_bit (hqueue : p.queue = q :: rest) (h : clock + 1 < p.divisor) :
    (p.sendingAt bit clock).clock = (p.sendingAt bit (clock + 1), false) := by
  have hleft : 1 < p.divisor - clock := by omega
  simp [ReportPort.clock, ReportPort.sendingAt, hqueue, hleft, Nat.sub_sub]

/-- At the end of a bit that is not the record's last. -/
theorem ReportPort.clock_next_bit (hqueue : p.queue = q :: rest) (h : clock + 1 = p.divisor)
    (hbit : bit + 1 < 10 * q.bytes.length) : (p.sendingAt bit clock).clock = (p.sendingAt (bit + 1) 0, false) := by
  have hleft : ¬1 < p.divisor - clock := by omega
  by_cases hstop : bit % 10 < 9
  · have hnext : (bit + 1) / 10 = bit / 10 ∧ (bit + 1) % 10 = bit % 10 + 1 := by omega
    simp [ReportPort.clock, ReportPort.sendingAt, hqueue, hleft, hstop, hnext]
  · have hnext : (bit + 1) / 10 = bit / 10 + 1 ∧ (bit + 1) % 10 = 0 := by omega
    have hchar : bit / 10 + 1 < q.bytes.length := by omega
    simp [ReportPort.clock, ReportPort.sendingAt, hqueue, hleft, hstop, hnext, hchar]

/-- At the end of the last stop bit. -/
theorem ReportPort.clock_last (hqueue : p.queue = q :: rest) (h : clock + 1 = p.divisor)
    (hbit : bit + 1 = 10 * q.bytes.length) : (p.sendingAt bit clock).clock = (p.sendingAt bit clock, true) := by
  have hleft : ¬1 < p.divisor - clock := by omega
  have hstop : ¬bit % 10 < 9 := by omega
  have hchar : ¬bit / 10 + 1 < q.bytes.length := by omega
  simp [ReportPort.clock, ReportPort.sendingAt, hqueue, hleft, hstop, hchar]

/-- The level of RPT, by the place of the bit in its character. -/
theorem ReportPort.rpt_sendingAt (hqueue : p.queue = q :: rest) {byte : Byte} (hbyte : q.bytes[bit / 10]? = some byte) :
    (p.sendingAt bit clock).rpt = .high ↔
      bit % 10 = 9 ∨ 1 ≤ bit % 10 ∧ bit % 10 ≤ 8 ∧ byte.getLsbD (bit % 10 - 1) = true := by
  simp only [ReportPort.rpt, ReportPort.sendingAt, hqueue, hbyte, Option.getD_some]
  have hlast : bit % 10 < 10 := Nat.mod_lt _ (by omega)
  by_cases hstart : bit % 10 = 0
  · simp [hstart]
  · by_cases hdata : bit % 10 ≤ 8
    · have hplace : bit % 10 ≠ 9 ∧ 1 ≤ bit % 10 := by omega
      cases byte.getLsbD (bit % 10 - 1) <;> simp [hstart, hdata, hplace]
    · have hstop : bit % 10 = 9 := by omega
      simp [hstop]

/-- The bit and the pixel clock within it, one clock later. -/
theorem succ_div_mod {d m : Nat} (hd : 1 ≤ d) :
    (m % d + 1 < d ∧ (m + 1) / d = m / d ∧ (m + 1) % d = m % d + 1) ∨
    (m % d + 1 = d ∧ (m + 1) / d = m / d + 1 ∧ (m + 1) % d = 0) := by
  have hlt := Nat.mod_lt m hd
  have hm := Nat.div_add_mod m d
  rcases Nat.lt_or_eq_of_le hlt with hin | hend
  · refine Or.inl ⟨hin, (Nat.div_mod_unique hd).2 ⟨?_, hin⟩⟩
    omega
  · refine Or.inr ⟨hend, (Nat.div_mod_unique hd).2 ⟨?_, hd⟩⟩
    rw [Nat.mul_succ]
    omega

/-- The transmitter `m` pixel clocks into the record: bit m / divisor, at its pixel clock m mod divisor. -/
theorem ReportPort.clock_iterate (hqueue : p.queue = q :: rest) (hd : 1 ≤ p.divisor)
    (htx : p.tx = .sending 0 0 p.divisor) {m : Nat} (hm : m < 10 * q.bytes.length * p.divisor) :
    (fun x : ReportPort => x.clock.1)^[m] p = p.sendingAt (m / p.divisor) (m % p.divisor) := by
  induction m with
  | zero => simp [ReportPort.sendingAt, ← htx]
  | succ m ih =>
    rw [Function.iterate_succ_apply', ih (by omega)]
    rcases succ_div_mod (m := m) hd with ⟨hin, hdiv, hmod⟩ | ⟨hend, hdiv, hmod⟩
    · rw [ReportPort.clock_in_bit hqueue hin, hdiv, hmod]
    · have hbit : m / p.divisor + 1 < 10 * q.bytes.length := by
        rw [← hdiv]
        exact Nat.div_lt_of_lt_mul (by rwa [Nat.mul_comm p.divisor])
      rw [ReportPort.clock_next_bit hqueue hend hbit, hdiv, hmod]

/-- The record ends with its last pixel clock, and not before. -/
theorem ReportPort.clock_ends_iff (hqueue : p.queue = q :: rest) (hd : 1 ≤ p.divisor) {m : Nat}
    (hm : m < 10 * q.bytes.length * p.divisor) :
    (p.sendingAt (m / p.divisor) (m % p.divisor)).clock.2 = true ↔ m + 1 = 10 * q.bytes.length * p.divisor := by
  have hbit : (m + 1) / p.divisor ≤ 10 * q.bytes.length := by
    rw [← Nat.mul_div_cancel (10 * q.bytes.length) hd]
    exact Nat.div_le_div_right hm
  have hwhole := Nat.div_add_mod (m + 1) p.divisor
  rcases succ_div_mod (m := m) hd with ⟨hin, hdiv, hmod⟩ | ⟨hend, hdiv, hmod⟩
  · rw [ReportPort.clock_in_bit hqueue hin]
    have hshort : m + 1 ≠ 10 * q.bytes.length * p.divisor := by
      intro heq
      rw [heq, Nat.mul_mod_left] at hmod
      omega
    simp [hshort]
  · rw [hmod, Nat.add_zero, Nat.mul_comm] at hwhole
    rcases Nat.lt_or_eq_of_le hbit with hmore | hlast
    · rw [ReportPort.clock_next_bit hqueue hend (by omega)]
      have hshort : m + 1 ≠ 10 * q.bytes.length * p.divisor := by
        rw [← hwhole]
        exact (Nat.mul_lt_mul_of_pos_right hmore hd).ne
      simp [hshort]
    · rw [ReportPort.clock_last hqueue hend (by omega), ← hwhole, hlast]
      simp

end

/-! ## The CRC-16 (R184) -/

/-- Steps 3 to 5 of R184: the feedback is absent where the high bit is the data bit. -/
theorem crcStep_eq (register : BitVec 16) (bit : Bool) : crcStep register bit =
    if register.getLsbD 15 = bit then register <<< 1 else (register <<< 1) ^^^ 0x8005#16 := by
  have hmsb : register.msb = register.getLsbD 15 := BitVec.msb_eq_getLsbD_last register
  rw [crcStep, hmsb]
  cases register.getLsbD 15 <;> cases bit <;> rfl

theorem crc16_append (bits : Byte → List Bool) (bytes : List Byte) (b : Byte) :
    crc16 bits (bytes ++ [b]) = (bits b).foldl crcStep (crc16 bits bytes) := by
  simp [crc16, List.foldl_append]

theorem msbFirst_eq_reverse (b : Byte) : msbFirst b = (lsbFirst b).reverse := by
  simp [msbFirst, lsbFirst, List.range_succ, BitVec.getMsbD]

/-- The check field stands after the bytes it covers, high byte first. -/
theorem withCheck_take (l : List Byte) : (withCheck l).take l.length = l := List.take_left' rfl

theorem wordAt_withCheck (l : List Byte) : wordAt (withCheck l) l.length = (crc16 lsbFirst l).toNat := by
  simp [wordAt, byteAt, withCheck, bytes16, bytes16_toNat]

/-! ## The bytes of the records (Tables 13-4 to 13-6) -/

/-- Byte 3 of a FRAME record: the state's code, and bit 4 where a slot is shown. -/
theorem FrameRecord.stateByte_toNat (f : FrameRecord) : f.stateByte.toNat =
    f.state.code.toNat + if f.shown = none then 0 else 16 := by
  cases hshown : f.shown with
  | none => simp [FrameRecord.stateByte, hshown]
  | some c =>
    simp only [FrameRecord.stateByte, hshown, Option.isSome_some, if_true, reduceCtorEq, if_false]
    cases f.state <;> rfl

theorem FrameRecord.length_body (f : FrameRecord) (lost : Count16) : (f.body lost).length = 22 := rfl

theorem Event.length_detail (e : Event) : e.detail.length = 4 := by
  cases e <;> rfl

theorem Event.length_body (e : Event) (afn lost : Count16) : (e.body afn lost).length = 10 := by
  simp [Event.body, bytes16, e.length_detail]

section
variable (f : FrameRecord) (lost : Count16)

/-- The fields of a FRAME record (Table 13-4) and its check field. -/
theorem frameRecord_bytes (bytes : List Byte) (h : bytes = (⟨.frame f, lost⟩ : QueuedRecord).bytes) :
    bytes.length = 24 ∧ byteAt bytes 0 = 0x46 ∧ wordAt bytes 1 = f.afn.toNat ∧
    byteAt bytes 3 = f.stateByte.toNat ∧ byteAt bytes 4 = f.outcome.code.toNat ∧
    wordAt bytes 5 = (f.shown.getD 0).toNat ∧ byteAt bytes 7 = f.readyCount % 256 ∧ wordAt bytes 8 = f.r.toNat ∧
    byteAt bytes 10 = f.hold.code.toNat ∧ byteAt bytes 11 = f.role.code.toNat ∧
    wordAt bytes 12 = f.role.cut % 65536 ∧
    byteAt bytes 14 = f.refused.toNat ∧ byteAt bytes 15 = f.defective.toNat ∧ byteAt bytes 16 = f.skipped.toNat ∧
    byteAt bytes 17 = f.underruns.toNat ∧ byteAt bytes 18 = f.strays.toNat ∧ byteAt bytes 19 = f.strayInput.toNat ∧
    wordAt bytes 20 = lost.toNat ∧ wordAt bytes 22 = (crc16 lsbFirst (bytes.take 22)).toNat := by
  obtain rfl : bytes = withCheck (f.body lost) := h
  have hcheck := wordAt_withCheck (f.body lost)
  have htake := withCheck_take (f.body lost)
  rw [f.length_body] at hcheck htake
  rw [htake]
  exact ⟨rfl, rfl, bytes16_toNat _, rfl, rfl, bytes16_toNat _, BitVec.toNat_ofNat _ _, bytes16_toNat _, rfl, rfl,
    (bytes16_toNat _).trans (BitVec.toNat_ofNat _ _), rfl, rfl, rfl, rfl, rfl, rfl, bytes16_toNat _, hcheck⟩

/-- The fields of an EVENT record (Table 13-5) and its check field. -/
theorem eventRecord_bytes (e : Event) (afn : Count16) (bytes : List Byte)
    (h : bytes = (⟨.event afn e, lost⟩ : QueuedRecord).bytes) :
    bytes.length = 12 ∧ byteAt bytes 0 = 0x45 ∧ byteAt bytes 1 = e.code.toNat ∧ wordAt bytes 2 = afn.toNat ∧
    (∀ k < 4, byteAt bytes (4 + k) = byteAt e.detail k) ∧ (∀ k < 3, wordAt bytes (4 + k) = wordAt e.detail k) ∧
    wordAt bytes 8 = lost.toNat ∧ wordAt bytes 10 = (crc16 lsbFirst (bytes.take 10)).toNat := by
  obtain rfl : bytes = withCheck (e.body afn lost) := h
  have hcheck := wordAt_withCheck (e.body afn lost)
  have htake := withCheck_take (e.body afn lost)
  rw [e.length_body] at hcheck htake
  rw [htake]
  have hlength : (withCheck (e.body afn lost)).length = 12 := by
    rw [withCheck, List.length_append, e.length_body]
    rfl
  have hdetail : ∀ k < 4, byteAt (withCheck (e.body afn lost)) (4 + k) = byteAt e.detail k := by
    intro k hk
    have hbody : withCheck (e.body afn lost) = [0x45#8, e.code, hiByte afn, loByte afn] ++
        (e.detail ++ (bytes16 lost ++ bytes16 (crc16 lsbFirst (e.body afn lost)))) := by
      simp [withCheck, Event.body, bytes16]
    have hwithin : k < e.detail.length := by rwa [e.length_detail]
    rw [byteAt, hbody, List.getElem?_append_right (by simp), List.getElem?_append_left (by simpa using hwithin)]
    simp [byteAt]
  refine ⟨hlength, rfl, rfl, bytes16_toNat _, hdetail, fun k hk => ?_, ?_, hcheck⟩
  · rw [wordAt, wordAt, hdetail k (by omega), Nat.add_assoc, hdetail (k + 1) (by omega)]
  · cases e <;> exact bytes16_toNat _

end

/-- The three events whose detail is a membership state (Table 13-6). -/
theorem Event.state_detail {e : Event} {state : MembershipState}
    (h : e = .markLost state ∨ e = .parked state ∨ e = .rejoinIgnored state) :
    e.code.toNat = (if e = .markLost state then 4 else if e = .parked state then 8 else 9) ∧
    e.detail = [state.code, 0, 0, 0] := by
  rcases h with rfl | rfl | rfl <;> simp [Event.code, Event.detail]

/-- Settles O53: the transmitter clock by clock, and the bytes of the records field by field. -/
theorem recordTakesTenBitsPerCharacter : Obligations.RecordTakesTenBitsPerCharacter := by
  refine ⟨?_, ?_, ?_, ?_⟩
  · intro p q rest m hqueue hd htx hm
    rw [ReportPort.clock_iterate hqueue hd htx hm]
    refine ⟨ReportPort.clock_ends_iff hqueue hd hm, ?_⟩
    rintro byte _ hbyte rfl
    rw [Nat.mul_comm 10, ← Nat.div_div_eq_div_mul] at hbyte
    exact ReportPort.rpt_sendingAt hqueue hbyte
  · intro f lost bytes byte word hbytes hbyte hword
    obtain rfl : byte = byteAt bytes := funext hbyte
    obtain rfl : word = wordAt bytes := funext hword
    obtain ⟨hlength, hkind, hafn, hstate, houtcome, hshown, hready, hr, hhold, hrole, hcut, hcounts⟩ :=
      frameRecord_bytes f lost bytes hbytes
    refine ⟨hlength, hkind, hafn, ?_, ?_, hshown, hready, hr, ?_, ?_, ?_, hcounts⟩
    · rw [hstate, f.stateByte_toNat]
      cases f.state <;> rfl
    · rw [houtcome]
      cases f.outcome <;> rfl
    · rw [hhold]
      cases f.hold <;> rfl
    · rw [hrole]
      cases f.role <;> rfl
    · rw [hcut]
      cases f.role <;> rfl
  · intro e afn lost bytes byte word hbytes hbyte hword
    obtain rfl : byte = byteAt bytes := funext hbyte
    obtain rfl : word = wordAt bytes := funext hword
    obtain ⟨hlength, hkind, hcode, hafn, hbytes, hwords, hlost, hcheck⟩ := eventRecord_bytes lost e afn bytes hbytes
    rw [hcode, hbytes 0 (by omega), hbytes 1 (by omega), hbytes 3 (by omega), hwords 0 (by omega), hwords 1 (by omega),
      hwords 2 (by omega)]
    refine ⟨hlength, hkind, hafn, ?_, ?_, ?_, ?_, ?_, ?_, ?_, ?_, hlost, hcheck⟩
    · rintro i n rfl
      exact ⟨rfl, BitVec.toNat_setWidth_of_le (by omega), BitVec.toNat_ofNat _ _, rfl⟩
    · rintro code k rfl
      exact ⟨rfl, BitVec.toNat_ofNat _ _, BitVec.toNat_ofNat _ _, rfl⟩
    · rintro cut rfl
      exact ⟨rfl, rfl, (bytes16_toNat _).trans (BitVec.toNat_ofNat _ _), rfl⟩
    · rintro rfl
      exact ⟨rfl, rfl, rfl, rfl⟩
    · rintro T rfl
      exact ⟨rfl, bytes16_toNat _, rfl⟩
    · rintro rfl
      exact ⟨rfl, rfl, rfl⟩
    · rintro cause rfl
      refine ⟨rfl, rfl, rfl, ?_⟩
      cases cause <;> rfl
    · rintro state hevent
      obtain ⟨hcode, hstate⟩ := Event.state_detail hevent
      rw [hstate]
      refine ⟨hcode, rfl, rfl, ?_⟩
      cases state <;> rfl
  · intro bits bytes b
    refine ⟨rfl, ?_, rfl, msbFirst_eq_reverse b⟩
    rw [crc16_append]
    exact congrArg (fun f => (bits b).foldl f (crc16 bits bytes)) (funext fun r => funext fun bit => crcStep_eq r bit)

end Sys2Proof.Machine
end
